-- ==== Sys2Proof/Word.lean ====
section
/-! DEFINITION. The word types of the block and their plainest arithmetic (00_scope.md R13, R16). -/

namespace Sys2Proof

/-- One byte of a frame, a payload or a buffer. -/
abbrev Byte := BitVec 8

/-- A host register, 32 bits (R13). -/
abbrev Word32 := BitVec 32

/-- A CAN identifier, 11 bits (R13, 10_state.md R44). -/
abbrev CanId := BitVec 11

/-- A UDS data identifier, 16 bits (R13). -/
abbrev Did := BitVec 16

end Sys2Proof
end

