-- ==== Sys2Proof/Config.lean ====
section
/-! DEFINITION. What an implementation of the block fixes, what the spec leaves as parameters, and the free values.
The `opaque` constants have no body: no proof can see their values, so a claim holds for every value. -/

namespace Sys2Proof

/-! ### The parameters the spec leaves OPEN (00_scope.md R14, 92_eei_decisions.md D40) -/

/-- A description text: an ASCII string of 1 to 64 bytes (R14). -/
structure DescText where
  bytes : List Byte
  pos : 1 ≤ bytes.length
  le64 : bytes.length ≤ 64
  ascii : ∀ b ∈ bytes, b.toNat ≤ 127
deriving DecidableEq, Repr

/-- `P_DTC_TEXT`, the partial map from a 24-bit DTC code to its description (R14, 45_payload_codecs.md R370).
Log entry 7. -/
opaque Config.dtcText : BitVec 24 → Option DescText

/-- `P_STATUS_TEXT`, the partial map from an 8-bit status to its description (R14, 45_payload_codecs.md R370).
Log entry 7. -/
opaque Config.statusText : BitVec 8 → Option DescText

/-! ### Free values (70_reset_and_hazards.md R451: "each byte a draw (any value)") -/

/-- The byte of TXBUF at an index that nothing has written, in one epoch of draws (10_state.md R54). Log entry 1. -/
opaque Config.txbufDraw : Nat → Nat → Byte

/-- The byte of RXBUF at an index whose contents are unspecified, in one epoch of draws (10_state.md R55).
Log entries 1 and 2. -/
opaque Config.rxbufDraw : Nat → Nat → Byte

/-! ### The host map of the buffers (20_memory.md R90) -/

/-- Host offset of TXBUF[0]. -/
abbrev txBase : Nat := 0x1000
/-- Host offset of RXBUF[0]. -/
abbrev rxBase : Nat := 0x2000
/-- Host offset of OUTBUF[0]. -/
abbrev outBase : Nat := 0x3000
/-- One past the last host offset of OUTBUF. -/
abbrev outEnd : Nat := 0x3100
/-- One past the last host offset (R80). -/
abbrev hostEnd : Nat := 0x4000

/-! ### The opcodes (30_encoding.md R130) -/

abbrev opEncSf : BitVec 8 := 0x01
abbrev opEncFf : BitVec 8 := 0x02
abbrev opEncCf : BitVec 8 := 0x03
abbrev opEncFc : BitVec 8 := 0x04
abbrev opClassify : BitVec 8 := 0x05
abbrev opTpRecv : BitVec 8 := 0x10
abbrev opTpSend : BitVec 8 := 0x11
abbrev opReadDid : BitVec 8 := 0x20
abbrev opWriteDid : BitVec 8 := 0x21
abbrev opReadDtc : BitVec 8 := 0x22
abbrev opClearDtc : BitVec 8 := 0x23
abbrev opDecEcuInfo : BitVec 8 := 0x30
abbrev opDecSensor : BitVec 8 := 0x31
abbrev opEncThresholds : BitVec 8 := 0x32
abbrev opDecDtcList : BitVec 8 := 0x33
abbrev opLutDtc : BitVec 8 := 0x34
abbrev opLutStatus : BitVec 8 := 0x35

/-! ### The UDS service identifiers (30_encoding.md R135, R136, R137) -/

abbrev sidReadDid : Byte := 0x22
abbrev sidWriteDid : Byte := 0x2E
abbrev sidReadDtc : Byte := 0x19
abbrev sidClearDtc : Byte := 0x14
abbrev sidNegative : Byte := 0x7F

/-- "A positive response SID is the request SID + 0x40" (00_scope.md R21, 30_encoding.md R136). -/
abbrev positiveSid (request : Byte) : Byte := request + 0x40

end Sys2Proof
end

