-- ==== Sys2Proof/Syntax.lean ====
section
/-! DEFINITION. The syntax: frames, the classifier's results, and `Instr`, one constructor for each row of
spec/opcode_table.json. -/

namespace Sys2Proof

/-- A CAN frame as it is on the wire: an 11-bit identifier and 0 to 8 data bytes (00_scope.md R19). Only
`data[0..dlc)` of the spec's record is on the wire, so the list holds exactly those bytes. -/
structure Frame where
  id : CanId
  data : List Byte
  le8 : data.length ≤ 8
deriving DecidableEq, Repr

/-- The number of data bytes (`dlc`). -/
def Frame.dlc (f : Frame) : Nat := f.data.length

/-- The all-zero frame of reset: id 0, dlc 0 (10_state.md R61). -/
def Frame.zero : Frame := ⟨0, [], by decide⟩

/-- The three flow statuses (30_encoding.md R125). -/
inductive FlowStatus where
  | continueToSend
  | wait
  | overflow
deriving DecidableEq, Repr

/-- What a frame classifies as (41_frame_codec.md R209). -/
inductive PciType where
  | single (len : Nat)
  | first (total : BitVec 12)
  | consecutive (sn : BitVec 4)
  | flowControl (fs : FlowStatus) (bs st : Byte)
  | malformed
deriving DecidableEq, Repr

/-- One constructor per row of spec/opcode_table.json. A host command carries no operand: its operands are in the
argument registers and the buffers (30_encoding.md R133). A PCI row is a whole received frame of that type, a request
or response row a whole UDS payload. -/
inductive Instr where
  -- host command words (30_encoding.md R130)
  | encSf
  | encFf
  | encCf
  | encFc
  | classify
  | tpRecv
  | tpSend
  | readDid
  | writeDid
  | readDtc
  | clearDtc
  | decEcuInfo
  | decSensor
  | encThresholds
  | decDtcList
  | lutDtc
  | lutStatus
  -- received CAN frames by PCI type (30_encoding.md R121 to R124)
  | pciSf (id : CanId) (payload padding : List Byte)
  | pciFf (id : CanId) (total : BitVec 12) (six : List Byte)
  | pciCf (id : CanId) (sn : BitVec 4) (data : List Byte)
  | pciFc (id : CanId) (fs : FlowStatus) (bs st : Byte) (padding : List Byte)
  -- UDS request payloads (30_encoding.md R135)
  | reqReadDid (did : Did)
  | reqWriteDid (did : Did) (data : List Byte)
  | reqReadDtc (subfunction mask : Byte)
  | reqClearDtc (group : Byte)
  -- UDS response payloads, the bytes after the SID (30_encoding.md R136, R137)
  | rspReadDid (rest : List Byte)
  | rspWriteDid (rest : List Byte)
  | rspReadDtc (rest : List Byte)
  | rspClearDtc (rest : List Byte)
  | rspNegative (rest : List Byte)
deriving DecidableEq, Repr

end Sys2Proof
end

