-- ==== Sys2Proof/WellFormed.lean ====
section
/-! DEFINITION. Which terms of `Instr` the encodings of 30_encoding.md admit. -/

namespace Sys2Proof

/-- An instruction some word, frame or payload encodes.
* PCI_SF: SF_DL 0 to 7 and at most 8 bytes in the frame (R121).
* PCI_FF: six payload bytes (R122). PCI_CF: up to 7 payload bytes (R123). PCI_FC: up to 5 padding bytes (R124).
* REQ_WRITE_DID: at most 4092 data bytes, so that 3 + LEN <= 4095 (R134).
* a response is an ISO-TP payload of at most 4095 bytes (00_scope.md R13). -/
def Instr.wellFormed : Instr → Bool
  | .encSf | .encFf | .encCf | .encFc | .classify | .tpRecv | .tpSend | .readDid | .writeDid | .readDtc
  | .clearDtc | .decEcuInfo | .decSensor | .encThresholds | .decDtcList | .lutDtc | .lutStatus => true
  | .pciSf _ payload padding => payload.length ≤ 7 && 1 + payload.length + padding.length ≤ 8
  | .pciFf _ _ six => six.length == 6
  | .pciCf _ _ data => data.length ≤ 7
  | .pciFc _ _ _ _ padding => padding.length ≤ 5
  | .reqReadDid _ => true
  | .reqWriteDid _ data => data.length ≤ 4092
  | .reqReadDtc _ _ => true
  | .reqClearDtc _ => true
  | .rspReadDid rest => 1 + rest.length ≤ 4095
  | .rspWriteDid rest => 1 + rest.length ≤ 4095
  | .rspReadDtc rest => 1 + rest.length ≤ 4095
  | .rspClearDtc rest => 1 + rest.length ≤ 4095
  | .rspNegative rest => 1 + rest.length ≤ 4095

end Sys2Proof
end

