-- ==== Sys2Proof/Decode.lean ====
section
/-! DEFINITION. The three encodings of the block (30_encoding.md): host command words, ISO-TP frames and UDS payloads.
Decoding is total and rejects by name; the encoder stands after it. The opcode table's four formats are told apart by
where the bits arrive (CMD register, RX port, request payload, response payload), which `Code` records. -/

namespace Sys2Proof

/-- Bits of one of the table's four formats. -/
inductive Code where
  | command (w : Word32)
  | frame (f : Frame)
  | request (payload : List Byte)
  | response (payload : List Byte)
deriving DecidableEq, Repr

/-- Why bits decode to no instruction. -/
inductive DecodeReject where
  /-- an OPCODE outside the opcode map (30_encoding.md R132) -/
  | reservedOpcode (o : BitVec 8)
  /-- a frame that classifies as Malformed (30_encoding.md R127) -/
  | malformedFrame
  /-- a payload that is none of the four requests (30_encoding.md R135) -/
  | unknownRequest
  /-- a payload whose SID is none of the five responses, or an empty one (30_encoding.md R136, R137) -/
  | unknownResponse
deriving DecidableEq, Repr

/-! ### Host command words (30_encoding.md R129, R130) -/

/-- The opcode map (R130). -/
def commandTable : List (BitVec 8 × Instr) :=
  [ (opEncSf, .encSf), (opEncFf, .encFf), (opEncCf, .encCf), (opEncFc, .encFc), (opClassify, .classify),
    (opTpRecv, .tpRecv), (opTpSend, .tpSend),
    (opReadDid, .readDid), (opWriteDid, .writeDid), (opReadDtc, .readDtc), (opClearDtc, .clearDtc),
    (opDecEcuInfo, .decEcuInfo), (opDecSensor, .decSensor), (opEncThresholds, .encThresholds),
    (opDecDtcList, .decDtcList), (opLutDtc, .lutDtc), (opLutStatus, .lutStatus) ]

/-- Bits [7:0] of a command word select the command; bits [31:8] are ignored (R129). -/
def commandOpcode (w : Word32) : BitVec 8 := w.extractLsb' 0 8

/-- Decode a command word; an opcode outside the map is reserved (R132). -/
def decodeCommand (w : Word32) : Except DecodeReject Instr :=
  match commandTable.find? (fun row => row.1 == commandOpcode w) with
  | some row => .ok row.2
  | none => .error (.reservedOpcode (commandOpcode w))

/-! ### ISO-TP frames (30_encoding.md R120 to R127, 41_frame_codec.md R209) -/

/-- Data byte `i` of a frame. -/
def Frame.byte (f : Frame) (i : Nat) : Byte := f.data.getD i 0

/-- The flow status a nibble stands for; 3 to 15 are reserved (R125). -/
def flowStatusOf (x : BitVec 4) : Option FlowStatus :=
  if x = 0 then some .continueToSend
  else if x = 1 then some .wait
  else if x = 2 then some .overflow
  else none

/-- `classify(f)`, case for case as 41_frame_codec.md R209 writes it. -/
def classifyFrame (f : Frame) : PciType :=
  if f.dlc = 0 then .malformed
  else
    let t : BitVec 4 := (f.byte 0).extractLsb' 4 4
    let x : BitVec 4 := (f.byte 0).extractLsb' 0 4
    if t = 0 then
      if 7 < x.toNat ∨ f.dlc < 1 + x.toNat then .malformed else .single x.toNat
    else if t = 1 then
      if f.dlc < 8 then .malformed else .first (x ++ f.byte 1)
    else if t = 2 then .consecutive x
    else if t = 3 then
      if f.dlc < 3 then .malformed
      else match flowStatusOf x with
        | none => .malformed
        | some fs => .flowControl fs (f.byte 1) (f.byte 2)
    else .malformed

/-- The frame as an instruction: its type and parameters (`classifyFrame`) with the payload bytes R209 gives each
type; the bytes beyond them are padding. -/
def decodeFrame (f : Frame) : Except DecodeReject Instr :=
  match classifyFrame f with
  | .single n => .ok (.pciSf f.id ((f.data.drop 1).take n) (f.data.drop (1 + n)))
  | .first total => .ok (.pciFf f.id total ((f.data.drop 2).take 6))
  | .consecutive sn => .ok (.pciCf f.id sn (f.data.drop 1))
  | .flowControl fs bs st => .ok (.pciFc f.id fs bs st (f.data.drop 3))
  | .malformed => .error .malformedFrame

/-! ### UDS payloads (30_encoding.md R135, R136, R137) -/

/-- Decode a request payload, byte 0 its SID (R135). -/
def decodeRequest (p : List Byte) : Except DecodeReject Instr :=
  match p with
  | [] => .error .unknownRequest
  | sid :: rest =>
    if sid = sidReadDid then
      match rest with
      | [hi, lo] => .ok (.reqReadDid (hi ++ lo))
      | _ => .error .unknownRequest
    else if sid = sidWriteDid then
      match rest with
      | hi :: lo :: data => if data.length ≤ 4092 then .ok (.reqWriteDid (hi ++ lo) data) else .error .unknownRequest
      | _ => .error .unknownRequest
    else if sid = sidReadDtc then
      match rest with
      | [sub, mask] => .ok (.reqReadDtc sub mask)
      | _ => .error .unknownRequest
    else if sid = sidClearDtc then
      match rest with
      | [group] => .ok (.reqClearDtc group)
      | _ => .error .unknownRequest
    else .error .unknownRequest

/-- Decode a response payload, byte 0 its SID (R136, R137). -/
def decodeResponse (p : List Byte) : Except DecodeReject Instr :=
  match p with
  | [] => .error .unknownResponse
  | sid :: rest =>
    if 4095 < 1 + rest.length then .error .unknownResponse
    else if sid = positiveSid sidReadDid then .ok (.rspReadDid rest)
    else if sid = positiveSid sidWriteDid then .ok (.rspWriteDid rest)
    else if sid = positiveSid sidReadDtc then .ok (.rspReadDtc rest)
    else if sid = positiveSid sidClearDtc then .ok (.rspClearDtc rest)
    else if sid = sidNegative then .ok (.rspNegative rest)
    else .error .unknownResponse

/-- Decode bits of any of the four formats. -/
def decode : Code → Except DecodeReject Instr
  | .command w => decodeCommand w
  | .frame f => decodeFrame f
  | .request p => decodeRequest p
  | .response p => decodeResponse p

/-! ### The encoder, from the same tables -/

/-- The nibble of a flow status (R125). -/
def FlowStatus.code : FlowStatus → BitVec 4
  | .continueToSend => 0
  | .wait => 1
  | .overflow => 2

/-- The frame that carries `bytes` (at most 8 of them). -/
def frameOf (id : CanId) (bytes : List Byte) : Frame :=
  ⟨id, bytes.take 8, List.length_take_le 8 bytes⟩

/-- A PCI byte: the type in the high nibble, its parameter in the low nibble (20_memory.md R88). -/
def pciByte (type param : BitVec 4) : Byte := type ++ param

/-- `hi8(d)` (00_scope.md R16). -/
def hi8 (d : BitVec 16) : Byte := d.extractLsb' 8 8

/-- `lo8(d)` (00_scope.md R16). -/
def lo8 (d : BitVec 16) : Byte := d.extractLsb' 0 8

/-- A command word with opcode `o`, its ignored bits 0 (R129). -/
def commandWord (o : BitVec 8) : Word32 := o.setWidth 32

/-- The bits of an instruction. -/
def encode : Instr → Code
  | .encSf => .command (commandWord opEncSf)
  | .encFf => .command (commandWord opEncFf)
  | .encCf => .command (commandWord opEncCf)
  | .encFc => .command (commandWord opEncFc)
  | .classify => .command (commandWord opClassify)
  | .tpRecv => .command (commandWord opTpRecv)
  | .tpSend => .command (commandWord opTpSend)
  | .readDid => .command (commandWord opReadDid)
  | .writeDid => .command (commandWord opWriteDid)
  | .readDtc => .command (commandWord opReadDtc)
  | .clearDtc => .command (commandWord opClearDtc)
  | .decEcuInfo => .command (commandWord opDecEcuInfo)
  | .decSensor => .command (commandWord opDecSensor)
  | .encThresholds => .command (commandWord opEncThresholds)
  | .decDtcList => .command (commandWord opDecDtcList)
  | .lutDtc => .command (commandWord opLutDtc)
  | .lutStatus => .command (commandWord opLutStatus)
  | .pciSf id payload padding =>
      .frame (frameOf id (pciByte 0 (BitVec.ofNat 4 payload.length) :: (payload ++ padding)))
  | .pciFf id total six =>
      .frame (frameOf id (pciByte 1 (total.extractLsb' 8 4) :: total.extractLsb' 0 8 :: six))
  | .pciCf id sn data => .frame (frameOf id (pciByte 2 sn :: data))
  | .pciFc id fs bs st padding => .frame (frameOf id (pciByte 3 fs.code :: bs :: st :: padding))
  | .reqReadDid did => .request [sidReadDid, hi8 did, lo8 did]
  | .reqWriteDid did data => .request (sidWriteDid :: hi8 did :: lo8 did :: data)
  | .reqReadDtc sub mask => .request [sidReadDtc, sub, mask]
  | .reqClearDtc group => .request [sidClearDtc, group]
  | .rspReadDid rest => .response (positiveSid sidReadDid :: rest)
  | .rspWriteDid rest => .response (positiveSid sidWriteDid :: rest)
  | .rspReadDtc rest => .response (positiveSid sidReadDtc :: rest)
  | .rspClearDtc rest => .response (positiveSid sidClearDtc :: rest)
  | .rspNegative rest => .response (sidNegative :: rest)

/-! ### The opcode table's words -/

/-- Whether bits decode to an instruction. -/
def decodes (c : Code) : Bool :=
  match decode c with
  | .ok _ => true
  | .error _ => false

/-- The first 8 bytes of a table word, its bits [7:0] first; the bits above `nbits` are 0. -/
def tableBytes (nbits w : Nat) : List Byte :=
  (List.range 8).map fun i => if 8 * i < nbits then BitVec.ofNat 8 (w / 2 ^ (8 * i)) else 0

/-- The request payload that starts with a table word: as many bytes as the SID's request has, the absent ones 0. -/
def tableRequest (nbits w : Nat) : List Byte :=
  (tableBytes nbits w).take (if BitVec.ofNat 8 w = sidClearDtc then 2 else 3)

/-- The bytes the table gives both to a command and to a row of a shorter format (30_encoding.md R120, R130, R135):
TP_RECV and PCI_FF, READ_DID and PCI_CF, READ_DTC and REQ_READ_DID, DEC_ECU_INFO and PCI_FC. -/
def sharedTableByte (w : Nat) : Bool := [0x10, 0x20, 0x22, 0x30].contains (w % 256)

/-- Which of the four formats a table word is read in. A word of 32 bits is a command word. A shorter word is read in
the first of these formats in which it is an instruction: command word, request payload, response payload, frame with
the identifier 0x7E8; but a byte that a command shares with a row of a shorter format is that row's, so that every row
has a word here. Log entry 8. -/
def tableCode (nbits w : Nat) : Code :=
  let command := Code.command (BitVec.ofNat 32 w)
  let request := Code.request (tableRequest nbits w)
  let response := Code.response ((tableBytes nbits w).take (max 1 (nbits / 8)))
  let frame := Code.frame (frameOf 0x7E8 (tableBytes nbits w))
  if 32 ≤ nbits then command
  else if decodes command && !sharedTableByte w then command
  else if decodes request then request
  else if decodes response then response
  else if decodes frame then frame
  else command

/-- The instruction the decoder reads from an opcode-table word. -/
def decodeTableWord (nbits w : Nat) : Option Instr :=
  match decode (tableCode nbits w) with
  | .ok i => some i
  | .error _ => none

end Sys2Proof
end

