-- ==== Sys2Proof/Machine/State.lean ====
section
/-! DEFINITION. The state of the block as plain data (10_state.md), the environment's side of its ports, the reasons a
step can stop, and the state after reset (70_reset_and_hazards.md R451). -/

namespace Sys2Proof.Machine

/-- The control state, nine values (10_state.md R33); codes 9 to 15 are never taken. -/
inductive Ctl where
  | idle
  | txSf
  | txFf
  | fcWait
  | txCf
  | stWait
  | respWait
  | rxFc
  | ackWait
deriving DecidableEq, Repr

/-- The reassembly state `rasm` (10_state.md R59). -/
inductive RasmPhase where
  | idle
  | accumulating
  | complete
  | failed
deriving DecidableEq, Repr

/-- CFG (10_state.md R42); its reserved bits hold nothing. -/
structure Cfg where
  ecuLayout : BitVec 2
  padEn : Bool
  rxFcEn : Bool
  padByte : Byte
deriving DecidableEq, Repr

/-- A DID registry entry: the DID and its valid bit V (10_state.md R47, R48). -/
structure DidEntry where
  did : Did
  valid : Bool
deriving DecidableEq, Repr

/-- The four registers that hold a frame, FIN_* or FOUT_* (10_state.md R52, R53). -/
structure FrameRegs where
  id : CanId
  dlc : BitVec 4
  d03 : Word32
  d47 : Word32
deriving DecidableEq, Repr

/-- The registers the host may write while BUSY = 0 (20_memory.md R90, access RW). -/
structure HostRegs where
  cfg : Cfg
  reqId : CanId
  respId : CanId
  tuUs : Word32
  fcTimeout : BitVec 8
  defTimeout : BitVec 8
  didEcu : DidEntry
  didSensor0 : DidEntry
  didSensor1 : DidEntry
  didSensor2 : DidEntry
  didSensor3 : DidEntry
  arg0 : Word32
  arg1 : Word32
  arg2 : Word32
  arg3 : Word32
  fin : FrameRegs
deriving DecidableEq, Repr

/-- The stored fields of STATUS and ERR_DETAIL (10_state.md R36, R40). BUSY, STATE and RASM are derived. -/
structure Status where
  done : Bool
  err : Bool
  cmdRejected : Bool
  errcode : BitVec 8
  errDetail : Word32
deriving DecidableEq, Repr

/-- RES_KIND and RES0 to RES3 (10_state.md R32). -/
structure Results where
  kind : BitVec 8
  r0 : Word32
  r1 : Word32
  r2 : Word32
  r3 : Word32
deriving DecidableEq, Repr

/-- The Transmitter's internal state (10_state.md R57). -/
structure Transmitter where
  hdr : List Byte
  hdrLen : BitVec 2
  len : BitVec 12
  pos : BitVec 12
  seq : BitVec 4
  bs : BitVec 8
  bsCnt : BitVec 8
  stUs : Word32
  nFrames : BitVec 16
  nFcWaits : BitVec 16
deriving DecidableEq, Repr

/-- The reassembly state (10_state.md R59). -/
structure Reassembly where
  phase : RasmPhase
  exp : BitVec 12
  len : BitVec 12
  seq : BitVec 4
  mf : Bool
  why : BitVec 8
deriving DecidableEq, Repr

/-- The timer state, in microseconds (10_state.md R60). -/
structure Timer where
  tmr : Word32
  lim : Word32
  respLim : Word32
deriving DecidableEq, Repr

/-- The TX port (10_state.md R61). -/
structure TxPort where
  valid : Bool
  frame : Frame
deriving DecidableEq, Repr

/-- What the environment does next: the events of 40_command_interface.md R170, and the two environment actions that
are no event of the block (a frame entering the external FIFO, a change of the `bus_ready` level). -/
inductive Input where
  /-- `MemWrite(addr, width, v)` on the host port -/
  | hostWrite (addr : BitVec 16) (width : Nat) (v : Word32)
  /-- `MemRead(addr, width)` on the host port -/
  | hostRead (addr : BitVec 16) (width : Nat)
  /-- the block takes the frame at the head of the external RX FIFO -/
  | rx
  /-- the transmit side answers the presented frame -/
  | txAck (ok : Bool)
  /-- `dt` microseconds pass -/
  | tick (dt : Nat)
  /-- the reset input -/
  | reset
  /-- the CAN receive side puts a frame into the external RX FIFO -/
  | frameArrives (f : Frame)
  /-- the `bus_ready` input takes a level -/
  | busReady (level : Bool)
deriving DecidableEq, Repr

/-- The environment's side of the ports: the MODEL's own fields, not the block's state. -/
structure Environment where
  /-- the schedule of inputs, the next one first (log entry 3) -/
  inputs : List Input
  /-- the external RX FIFO, the oldest frame first (log entry 4) -/
  rxFifo : List Frame
  /-- the level of the `bus_ready` input (log entry 5) -/
  busReady : Bool
  /-- the word the last HostRead returned (log entry 6) -/
  hostRdata : Word32
deriving DecidableEq, Repr

/-- The counters that select the free values of unwritten buffer bytes: the MODEL's own (log entries 1 and 2). -/
structure Draws where
  txbuf : Nat
  rxbuf : Nat
deriving DecidableEq, Repr

/-- The state of the block (10_state.md R30). -/
structure State where
  regs : HostRegs
  status : Status
  res : Results
  rxLen : BitVec 12
  fout : FrameRegs
  /-- TXBUF, RXBUF and OUTBUF: the listed bytes by host offset (20_memory.md R90) -/
  mem : List Host.Cell
  ctl : Ctl
  op : BitVec 8
  tx : Transmitter
  rasm : Reassembly
  timer : Timer
  port : TxPort
  didCur : Did
  env : Environment
  draws : Draws
deriving DecidableEq, Repr

/-- Why the machine stops with a fault. Each is a control state that no rule of the spec covers and that no run from
reset reaches (Sys2Proof/Safety.lean); stopping there is safe. Log entry 10. -/
inductive Fault where
  /-- `tx_done` (43_transmitter.md R296) or `rasm_complete` (42_reassembly.md R250) with an `op` that has no case
  there. Raised by the Transmitter, the Reassembly Engine and the response rows. Safe. -/
  | opHasNoCompletionRule
  /-- a well-formed frame in RESP_WAIT while `rasm` is Complete or Failed, which 42_reassembly.md R244 excludes.
  Raised by the PCI rows. Safe. -/
  | rasmHasNoFrameRule
  /-- a TxAck while `tx_valid` = 1 in a control state other than TX_SF, TX_FF, TX_CF and RX_FC, which 10_state.md R61
  excludes. Raised by the TxAck event. Safe. -/
  | txAckHasNoRule
deriving DecidableEq, Repr

/-- Why the machine gives no meaning. -/
inductive Refusal where
  /-- an instruction without a meaning yet; raised by `exec`'s refused arms only. Safe. -/
  | notModelled (mnemonic : String)
  /-- a host access that is misaligned, at or above 0x4000, or not 32 bits wide (20_memory.md R83: "the model refuses
  it"). Raised by the host events. Safe. Log entry 11. -/
  | hostAccessOutsideContract
  /-- a TxAck while `tx_valid` = 0, when the event is not enabled (40_command_interface.md R170). Safe. Log
  entry 11. -/
  | txAckNotEnabled
  /-- a Tick of 0 microseconds, which is no event (60_exceptions.md R420: dt >= 1 µs). Safe. Log entry 11. -/
  | tickNotPositive
deriving DecidableEq, Repr

/-- The outcome of a meaning. -/
abbrev Out : Type := Host.Outcome State Fault Refusal

/-- The empty registry entry: DID 0, V = 0. -/
def DidEntry.empty : DidEntry := ⟨0, false⟩

/-- Frame registers that hold 0. -/
def FrameRegs.zero : FrameRegs := ⟨0, 0, 0, 0⟩

/-- Result registers that hold 0 (RES_KIND NONE). -/
def Results.none : Results := ⟨0, 0, 0, 0, 0⟩

/-- The machine right after reset, every field at the value of 70_reset_and_hazards.md R451. The environment's fields
and the draw counters are the model's own (log entries 1 to 6). -/
def State.reset : State where
  regs :=
    { cfg := { ecuLayout := 0, padEn := false, rxFcEn := true, padByte := 0 }
      reqId := 0x7E0
      respId := 0x7E8
      tuUs := 1000000
      fcTimeout := 2
      defTimeout := 3
      didEcu := DidEntry.empty
      didSensor0 := DidEntry.empty
      didSensor1 := DidEntry.empty
      didSensor2 := DidEntry.empty
      didSensor3 := DidEntry.empty
      arg0 := 0
      arg1 := 0
      arg2 := 0
      arg3 := 0
      fin := FrameRegs.zero }
  status := { done := false, err := false, cmdRejected := false, errcode := 0, errDetail := 0 }
  res := Results.none
  rxLen := 0
  fout := FrameRegs.zero
  mem := []
  ctl := .idle
  op := 0
  tx :=
    { hdr := [0, 0, 0], hdrLen := 0, len := 0, pos := 0, seq := 0, bs := 0, bsCnt := 0, stUs := 0,
      nFrames := 0, nFcWaits := 0 }
  rasm := { phase := .idle, exp := 0, len := 0, seq := 0, mf := false, why := 0 }
  timer := { tmr := 0, lim := 0, respLim := 0 }
  port := { valid := false, frame := Frame.zero }
  didCur := 0
  env := { inputs := [], rxFifo := [], busReady := true, hostRdata := 0 }
  draws := { txbuf := 0, rxbuf := 0 }

end Sys2Proof.Machine
end

