-- ==== Sys2Proof/Machine/Flags.lean ====
section
/-! DEFINITION. Every flag and code computation: the error codes and details (60_exceptions.md R401, R402), the result
kinds (10_state.md R32), the codes of `ctl` and `rasm`, and the STATUS word (10_state.md R36). -/

namespace Sys2Proof.Machine

/-- A bit as a 32-bit value. -/
def bit (b : Bool) : Word32 := if b then 1 else 0

/-- The command errors (60_exceptions.md R401), each with what its detail word records (R402). -/
inductive CmdError where
  | busNotReady (txRejected : Bool)
  | payloadTooLargeForSingleFrame (n : Nat)
  | malformedPci (byte0 : Byte) (dlc : Nat)
  | sequenceError (expected received : BitVec 4) (type : BitVec 2)
  | timeout (len : BitVec 12) (mf : Bool)
  | flowControlTimeout (pos : BitVec 12)
  | flowControlRejected (fs : FlowStatus)
  | unexpectedServiceId (sid nrc : Byte) (nrcValid empty : Bool)
  | invalidSensorPayload (n : Nat)
  | ecuInfoPayloadTooShort (n : Nat)
  | dtcPayloadMalformed (n : Nat)
  | writeAckNotObserved (windowRanOut : Bool)
  | didMismatch (echo : Did) (short : Bool)
  | invalidArgument
  | invalidCommand (o : BitVec 8)
  | ecuLayoutNotSelected (layout : BitVec 2)
deriving DecidableEq, Repr

/-- The code written to STATUS.ERRCODE (R401). -/
def errorCode : CmdError → BitVec 8
  | .busNotReady _ => 0x01
  | .payloadTooLargeForSingleFrame _ => 0x02
  | .malformedPci _ _ => 0x03
  | .sequenceError _ _ _ => 0x04
  | .timeout _ _ => 0x05
  | .flowControlTimeout _ => 0x06
  | .flowControlRejected _ => 0x07
  | .unexpectedServiceId _ _ _ _ => 0x08
  | .invalidSensorPayload _ => 0x09
  | .ecuInfoPayloadTooShort _ => 0x0A
  | .dtcPayloadMalformed _ => 0x0B
  | .writeAckNotObserved _ => 0x0C
  | .didMismatch _ _ => 0x10
  | .invalidArgument => 0x11
  | .invalidCommand _ => 0x12
  | .ecuLayoutNotSelected _ => 0x13

/-- The word written to ERR_DETAIL (R402); unnamed bits are 0. -/
def errorDetail : CmdError → Word32
  | .busNotReady txRejected => bit txRejected
  | .payloadTooLargeForSingleFrame n => (BitVec.ofNat 17 n).setWidth 32
  | .malformedPci byte0 dlc => byte0.setWidth 32 ||| (BitVec.ofNat 4 dlc).setWidth 32 <<< 8
  | .sequenceError expected received type =>
      expected.setWidth 32 ||| received.setWidth 32 <<< 4 ||| type.setWidth 32 <<< 8
  | .timeout len mf => len.setWidth 32 ||| bit mf <<< 12
  | .flowControlTimeout pos => pos.setWidth 32
  | .flowControlRejected fs => fs.code.setWidth 32
  | .unexpectedServiceId sid nrc nrcValid empty =>
      sid.setWidth 32 ||| nrc.setWidth 32 <<< 8 ||| bit nrcValid <<< 16 ||| bit empty <<< 17
  | .invalidSensorPayload n => (BitVec.ofNat 16 n).setWidth 32
  | .ecuInfoPayloadTooShort n => (BitVec.ofNat 16 n).setWidth 32
  | .dtcPayloadMalformed n => (BitVec.ofNat 16 n).setWidth 32
  | .writeAckNotObserved windowRanOut => bit windowRanOut
  | .didMismatch echo short => echo.setWidth 32 ||| bit short <<< 16
  | .invalidArgument => 0
  | .invalidCommand o => o.setWidth 32
  | .ecuLayoutNotSelected layout => layout.setWidth 32

/-- The kinds of result (10_state.md R32). -/
inductive ResKind where
  | ecuInfo
  | sensorSample
  | raw
  | dtcList
  | ack
  | payload
  | frame
  | bytes
  | sent
  | class
  | text
deriving DecidableEq, Repr

/-- The value written to RES_KIND (R32); 0 is NONE. -/
def resKindCode : ResKind → BitVec 8
  | .ecuInfo => 1
  | .sensorSample => 2
  | .raw => 3
  | .dtcList => 4
  | .ack => 5
  | .payload => 6
  | .frame => 7
  | .bytes => 8
  | .sent => 9
  | .class => 10
  | .text => 11

/-- The code of a control state (10_state.md R33). -/
def ctlCode : Ctl → BitVec 4
  | .idle => 0
  | .txSf => 1
  | .txFf => 2
  | .fcWait => 3
  | .txCf => 4
  | .stWait => 5
  | .respWait => 6
  | .rxFc => 7
  | .ackWait => 8

/-- The code of a reassembly state (10_state.md R36, field RASM). -/
def rasmCode : RasmPhase → BitVec 2
  | .idle => 0
  | .accumulating => 1
  | .complete => 2
  | .failed => 3

/-- STATUS.BUSY: 1 exactly when `ctl` is not IDLE (10_state.md R37). -/
def busy (s : State) : Bool := s.ctl != .idle

/-- The STATUS word (10_state.md R36). -/
def statusWord (s : State) : Word32 :=
  bit (busy s) ||| bit s.status.done <<< 1 ||| bit s.status.err <<< 2 ||| bit s.status.cmdRejected <<< 3
    ||| s.status.errcode.setWidth 32 <<< 8 ||| (ctlCode s.ctl).setWidth 32 <<< 16
    ||| (rasmCode s.rasm.phase).setWidth 32 <<< 20

end Sys2Proof.Machine
end

