-- ==== Sys2Proof/Machine/Operands.lean ====
section
/-! DEFINITION. Every operand form: the argument fields of 30_encoding.md R133, the range checks of R134, the
separation-time decoding of R126 and the packing of frames into registers (10_state.md R52, R53). -/

namespace Sys2Proof.Machine

/-! ### Separation time (30_encoding.md R126) -/

/-- `st_decode(v) -> (valid, us)` (R126). -/
def stDecode (v : Byte) : Bool × Word32 :=
  if v.toNat ≤ 0x7F then (true, BitVec.ofNat 32 (v.toNat * 1000))
  else if 0xF1 ≤ v.toNat ∧ v.toNat ≤ 0xF9 then (true, BitVec.ofNat 32 ((v.toNat - 0xF0) * 100))
  else (false, 127000)

/-! ### Argument fields (30_encoding.md R133); all unsigned, bits not named ignored -/

/-- ENC_SF: SID = ARG0[7:0]. -/
def argSid (r : HostRegs) : Byte := r.arg0.extractLsb' 0 8
/-- ENC_SF: HAS_DID = ARG0[8]. -/
def argHasDid (r : HostRegs) : Bool := r.arg0.getLsbD 8
/-- ENC_SF: DID = ARG1[15:0]. -/
def argSfDid (r : HostRegs) : Did := r.arg1.extractLsb' 0 16
/-- ENC_SF, ENC_CF, TP_SEND, WRITE_DID, DEC_*: LEN = ARG2[15:0]. -/
def argLen (r : HostRegs) : Nat := (r.arg2.extractLsb' 0 16).toNat
/-- ENC_FF: TOTAL_LEN = ARG0[15:0]. -/
def argTotalLen (r : HostRegs) : Nat := (r.arg0.extractLsb' 0 16).toNat
/-- ENC_CF: SEQ = ARG0[7:0]. -/
def argSeq (r : HostRegs) : Nat := (r.arg0.extractLsb' 0 8).toNat
/-- ENC_FC: FS = ARG0[7:0]. -/
def argFs (r : HostRegs) : Nat := (r.arg0.extractLsb' 0 8).toNat
/-- ENC_FC: BS = ARG1[7:0]. -/
def argBs (r : HostRegs) : Byte := r.arg1.extractLsb' 0 8
/-- ENC_FC: ST = ARG2[7:0]. -/
def argSt (r : HostRegs) : Byte := r.arg2.extractLsb' 0 8
/-- TIMEOUT = ARG3[7:0]. -/
def argTimeout (r : HostRegs) : BitVec 8 := r.arg3.extractLsb' 0 8
/-- READ_DID, WRITE_DID: DID = ARG0[15:0]. -/
def argDid (r : HostRegs) : Did := r.arg0.extractLsb' 0 16
/-- DEC_ECU_INFO, DEC_SENSOR, DEC_DTC_LIST: OFF = ARG1[15:0]. -/
def argOff (r : HostRegs) : Nat := (r.arg1.extractLsb' 0 16).toNat
/-- ENC_THRESHOLDS: ULTRA_MIN = ARG0[15:0]. -/
def argUltraMin (r : HostRegs) : BitVec 16 := r.arg0.extractLsb' 0 16
/-- ENC_THRESHOLDS: ULTRA_MAX = ARG0[31:16]. -/
def argUltraMax (r : HostRegs) : BitVec 16 := r.arg0.extractLsb' 16 16
/-- ENC_THRESHOLDS: TOF_MIN = ARG1[15:0]. -/
def argTofMin (r : HostRegs) : BitVec 16 := r.arg1.extractLsb' 0 16
/-- ENC_THRESHOLDS: TOF_MAX = ARG1[31:16]. -/
def argTofMax (r : HostRegs) : BitVec 16 := r.arg1.extractLsb' 16 16
/-- LUT_DTC: CODE = ARG0[23:0]. -/
def argCode (r : HostRegs) : BitVec 24 := r.arg0.extractLsb' 0 24
/-- LUT_STATUS: STATUS = ARG0[7:0]. -/
def argStatus (r : HostRegs) : BitVec 8 := r.arg0.extractLsb' 0 8

/-! ### Range checks (30_encoding.md R134) -/

/-- ENC_FF: TOTAL_LEN <= 4095. -/
def encFfArgsOk (r : HostRegs) : Bool := argTotalLen r ≤ 4095
/-- ENC_CF: SEQ <= 15; then LEN <= 7. -/
def encCfArgsOk (r : HostRegs) : Bool := argSeq r ≤ 15 && argLen r ≤ 7
/-- ENC_FC: FS <= 2; then st_decode(ST).valid = 1. -/
def encFcArgsOk (r : HostRegs) : Bool := argFs r ≤ 2 && (stDecode (argSt r)).1
/-- CLASSIFY: FIN_DLC <= 8. -/
def classifyArgsOk (r : HostRegs) : Bool := r.fin.dlc.toNat ≤ 8
/-- TP_SEND: LEN <= 4095. -/
def tpSendArgsOk (r : HostRegs) : Bool := argLen r ≤ 4095
/-- WRITE_DID: LEN <= 4092. -/
def writeDidArgsOk (r : HostRegs) : Bool := argLen r ≤ 4092
/-- DEC_ECU_INFO, DEC_SENSOR, DEC_DTC_LIST: OFF + LEN <= 4096. -/
def rxRangeArgsOk (r : HostRegs) : Bool := argOff r + argLen r ≤ 4096

/-! ### Frames in registers (10_state.md R52, R53; 20_memory.md R87) -/

/-- Byte `k` (0 to 3) of a word, byte 0 in bits [7:0]. -/
def wordByte (w : Word32) (k : Nat) : Byte := w.extractLsb' (8 * k) 8

/-- Four bytes as a little-endian word (R87). -/
def leWord (b0 b1 b2 b3 : Byte) : Word32 := b3 ++ b2 ++ b1 ++ b0

/-- A frame as the four registers hold it; bytes beyond the dlc are 0 (R53). -/
def frameToRegs (f : Frame) : FrameRegs where
  id := f.id
  dlc := BitVec.ofNat 4 f.dlc
  d03 := leWord (f.byte 0) (f.byte 1) (f.byte 2) (f.byte 3)
  d47 := leWord (f.byte 4) (f.byte 5) (f.byte 6) (f.byte 7)

/-- The frame the four registers hold (R52), for a dlc of at most 8. -/
def frameFromRegs (r : FrameRegs) : Frame :=
  frameOf r.id
    ([ wordByte r.d03 0, wordByte r.d03 1, wordByte r.d03 2, wordByte r.d03 3,
       wordByte r.d47 0, wordByte r.d47 1, wordByte r.d47 2, wordByte r.d47 3 ].take r.dlc.toNat)

end Sys2Proof.Machine
end

