-- ==== Sys2Proof/Machine/Ops.lean ====
section
/-! DEFINITION. The named operations over memory, registers and ports that every meaning is made of: the buffers, the
acceptance of a command, the end of a command (`raise`, which is how the block takes an exception, and `finish`), the
frame builders, and the start of each wait. -/

namespace Sys2Proof.Machine

/-! ### The listed bytes (10_state.md R54, R55, R56) -/

/-- The byte listed at an address. -/
def memGet : List Host.Cell → Nat → Option Byte
  | [], _ => none
  | (a, v) :: m, k => if a = k then some v else memGet m k

/-- List the byte `v` at `k`, keeping the addresses strictly rising. -/
def memPut : List Host.Cell → Nat → Byte → List Host.Cell
  | [], k, v => [(k, v)]
  | (a, w) :: m, k, v =>
    if k < a then (k, v) :: (a, w) :: m
    else if k = a then (k, v) :: m
    else (a, w) :: memPut m k v

/-- Take the addresses `lo` to `hi - 1` off the list. -/
def memDrop (m : List Host.Cell) (lo hi : Nat) : List Host.Cell :=
  m.filter fun c => decide (c.1 < lo) || decide (hi ≤ c.1)

/-- Whether an offset is a byte of OUTBUF. -/
def inOutbuf (k : Nat) : Bool := decide (outBase ≤ k) && decide (k < outEnd)

/-- Store a byte in canonical form: a 0 in OUTBUF is what an unlisted byte there reads as, so it is not listed. -/
def memStore (m : List Host.Cell) (k : Nat) (v : Byte) : List Host.Cell :=
  if inOutbuf k && v == 0 then memDrop m k (k + 1) else memPut m k v

/-- Store bytes at rising addresses from `k`. -/
def memStoreBytes : List Host.Cell → Nat → List Byte → List Host.Cell
  | m, _, [] => m
  | m, k, b :: bs => memStoreBytes (memStore m k b) (k + 1) bs

/-- Whether the addresses of a list are strictly rising and all above `lo`. -/
def risingFrom : Nat → List Host.Cell → Bool
  | _, [] => true
  | lo, (a, _) :: m => decide (lo ≤ a) && risingFrom (a + 1) m

/-- The canonical form: addresses strictly rising, and no listed byte equal to what an unlisted address reads as. An
unlisted byte of TXBUF or RXBUF reads as a draw, which is no value, so no listed byte there equals it; an unlisted
byte of OUTBUF reads 0. -/
def Memory.wf (m : List Host.Cell) : Bool :=
  risingFrom 0 m && m.all fun c => !(inOutbuf c.1 && c.2 == 0)

/-- What an unlisted host offset reads as: a free value in TXBUF and RXBUF (70_reset_and_hazards.md R451), 0 in OUTBUF
and at the offsets that hold no buffer. Log entries 1 and 2. -/
def unlistedByte (d : Draws) (a : Nat) : Byte :=
  if txBase ≤ a ∧ a < rxBase then Config.txbufDraw d.txbuf (a - txBase)
  else if rxBase ≤ a ∧ a < outBase then Config.rxbufDraw d.rxbuf (a - rxBase)
  else 0

/-- The byte of the buffers at a host offset. -/
def byteAt (s : State) (a : Nat) : Byte :=
  match memGet s.mem a with
  | some v => v
  | none => unlistedByte s.draws a

/-- TXBUF[k]. -/
def txByte (s : State) (k : Nat) : Byte := byteAt s (txBase + k)

/-- RXBUF[k]. -/
def rxByte (s : State) (k : Nat) : Byte := byteAt s (rxBase + k)

/-- TXBUF[k .. k+n). -/
def txBytes (s : State) (k n : Nat) : List Byte := (List.range n).map fun i => txByte s (k + i)

/-- RXBUF[k .. k+n). -/
def rxBytes (s : State) (k n : Nat) : List Byte := (List.range n).map fun i => rxByte s (k + i)

/-- The word of four buffer bytes at a host offset, little-endian (20_memory.md R81, R87). -/
def wordAt (s : State) (a : Nat) : Word32 :=
  leWord (byteAt s a) (byteAt s (a + 1)) (byteAt s (a + 2)) (byteAt s (a + 3))

/-- Store bytes at a host offset. -/
def storeAt (s : State) (a : Nat) (bs : List Byte) : State := { s with mem := memStoreBytes s.mem a bs }

/-- TXBUF[k ..) <- bs. -/
def storeTx (s : State) (k : Nat) (bs : List Byte) : State := storeAt s (txBase + k) bs

/-- RXBUF[k ..) <- bs. -/
def storeRx (s : State) (k : Nat) (bs : List Byte) : State := storeAt s (rxBase + k) bs

/-- OUTBUF[0..256) <- zeros. -/
def zeroOut (s : State) : State := { s with mem := memDrop s.mem outBase outEnd }

/-- OUTBUF[k ..) <- bs. -/
def storeOut (s : State) (k : Nat) (bs : List Byte) : State := storeAt s (outBase + k) bs

/-- RXBUF bytes at indices `n` and above become unspecified: "Bytes at indices RX_LEN and above after a reassembly are
unspecified (a draw)" (10_state.md R55). A fresh epoch of draws gives them new free values. Log entry 2. -/
def forgetRx (s : State) (n : Nat) : State :=
  { s with
    mem := memDrop s.mem (rxBase + n) outBase
    draws := { s.draws with rxbuf := s.draws.rxbuf + 1 } }

/-! ### Time (60_exceptions.md R420, R422) -/

/-- `sat32(x) = min(x, 2^32 - 1)` (R420). -/
def sat32 (x : Nat) : Word32 := BitVec.ofNat 32 (min x (2 ^ 32 - 1))

/-- `rx_ready` (10_state.md R62). -/
def rxReady (c : Ctl) : Bool :=
  match c with
  | .idle | .fcWait | .respWait | .ackWait => true
  | .txSf | .txFf | .txCf | .stWait | .rxFc => false

/-! ### The end of a command (60_exceptions.md R410, R411) -/

/-- What both ends of a command do to the control state, the TX port and the timer (R410, R411). -/
def endCommand (s : State) : State :=
  { s with
    ctl := .idle
    port := { s.port with valid := false }
    timer := { s.timer with tmr := 0, lim := 0 } }

/-- `raise E(d)`: take the exception E, the block's one way of taking one (R410). ERR, ERRCODE and ERR_DETAIL record
it, DONE is set and the block returns to IDLE. `raise` itself leaves the buffers alone: a rule that ends a reassembly
or takes a response forgets RXBUF before it raises (log entry 2), and a failure that does neither keeps every byte of
RXBUF, which is the model's choice (log entry 18). -/
def raise (e : CmdError) (s : State) : State :=
  endCommand
    { s with
      status := { s.status with err := true, errcode := errorCode e, errDetail := errorDetail e, done := true } }

/-- `finish(kind, r0, r1, r2, r3)`: the command ends successfully (R411). -/
def finish (kind : ResKind) (r0 r1 r2 r3 : Word32) (s : State) : State :=
  endCommand
    { s with
      res := { kind := resKindCode kind, r0 := r0, r1 := r1, r2 := r2, r3 := r3 }
      status := { s.status with err := false, errcode := 0, done := true } }

/-! ### Acceptance (40_command_interface.md R172 to R177) -/

/-- The clears of an acceptance and the write of `op` (R174). -/
def accept (o : BitVec 8) (s : State) : State :=
  { s with
    status := { done := false, err := false, cmdRejected := false, errcode := 0, errDetail := 0 }
    res := Results.none
    op := o }

/-- A command request with opcode `o` (R172, R173, R174): rejected while BUSY, else accepted; then the range checks,
then the command's own rule. -/
def command (o : BitVec 8) (argsOk : HostRegs → Bool) (body : State → State) (s : State) : State :=
  if busy s then { s with status := { s.status with cmdRejected := true } }
  else if argsOk s.regs then body (accept o s)
  else raise .invalidArgument (accept o s)

/-- A command request whose opcode is reserved: accepted and finished with InvalidCommand (R174, 30_encoding.md
R132). -/
def reservedCommand (o : BitVec 8) (s : State) : State :=
  command o (fun _ => true) (raise (.invalidCommand o)) s

/-- The window of a receiving command in time units (R175, 60_exceptions.md R422). -/
def windowUnits (r : HostRegs) : Nat :=
  if argTimeout r ≠ 0 then (argTimeout r).toNat else r.defTimeout.toNat

/-- The initialisations of a bus command's start (R175). -/
def busInit (s : State) : State :=
  { s with
    rasm := { phase := .idle, exp := 0, len := 0, seq := 0, mf := false, why := 0 }
    rxLen := 0
    tx :=
      { s.tx with
        hdrLen := 0, len := 0, pos := 0, seq := 1, bs := 0, bsCnt := 0, stUs := 0, nFrames := 0, nFcWaits := 0 }
    timer := { tmr := 0, lim := 0, respLim := sat32 (windowUnits s.regs * s.regs.tuUs.toNat) } }

/-- A bus command's start (R175), the sampling of `bus_ready` (R177), then the start rule. -/
def busStart (start : State → State) (s : State) : State :=
  if s.env.busReady then start (busInit s) else raise (.busNotReady false) (busInit s)

/-! ### Frames (30_encoding.md R128, 41_frame_codec.md R201 to R207) -/

/-- `mkframe(bytes)`, for 1 to 8 bytes (R128). -/
def mkFrame (r : HostRegs) (bytes : List Byte) : Frame :=
  if r.cfg.padEn then frameOf r.reqId (bytes ++ List.replicate (8 - bytes.length) r.cfg.padByte)
  else frameOf r.reqId bytes

/-- `sf_frame(P)` (R201). -/
def sfFrame (r : HostRegs) (p : List Byte) : Frame := mkFrame r (pciByte 0 (BitVec.ofNat 4 p.length) :: p)

/-- `ff_frame(T, six)` (R203). -/
def ffFrame (r : HostRegs) (total : BitVec 12) (six : List Byte) : Frame :=
  mkFrame r (pciByte 1 (total.extractLsb' 8 4) :: total.extractLsb' 0 8 :: six)

/-- `cf_frame(sn, d)` (R205). -/
def cfFrame (r : HostRegs) (sn : BitVec 4) (d : List Byte) : Frame := mkFrame r (pciByte 2 sn :: d)

/-- `fc_frame(fs, bs, st)` (R207). -/
def fcFrame (r : HostRegs) (fs : BitVec 4) (bs st : Byte) : Frame := mkFrame r [pciByte 3 fs, bs, st]

/-- `emit(f)`, and the TX state that awaits its TxAck (40_command_interface.md R181). -/
def emit (f : Frame) (c : Ctl) (s : State) : State :=
  { s with port := { valid := true, frame := f }, ctl := c }

/-! ### The receive filter (40_command_interface.md R179, 42_reassembly.md R241, R242) -/

/-- `Rx(f)` for a frame with identifier `id`: what each waiting state does with it. A frame of another identifier and
a frame in IDLE are discarded; in the states with `rx_ready` = 0 the frame stays in the external FIFO (10_state.md
R62). -/
def whenReceived (id : CanId) (fcWait respWait ackWait : State → Out) (s : State) : Out :=
  if id ≠ s.regs.respId then .next s
  else match s.ctl with
    | .idle => .next s
    | .fcWait => fcWait s
    | .respWait => respWait s
    | .ackWait => ackWait s
    | .txSf => .next s
    | .txFf => .next s
    | .txCf => .next s
    | .stWait => .next s
    | .rxFc => .next s

end Sys2Proof.Machine
end

