-- ==== Sys2Proof/Machine/FrameCodec.lean ====
section
/-! DEFINITION. The Frame Codec's five pure commands: ENC_SF, ENC_FF, ENC_CF, ENC_FC, CLASSIFY (41_frame_codec.md). -/

namespace Sys2Proof.Machine

/-- FOUT <- f (10_state.md R53). -/
def putFout (f : Frame) (s : State) : State := { s with fout := frameToRegs f }

/-- n = 1 + 2*HAS_DID + LEN of ENC_SF (R200). -/
def encSfLength (r : HostRegs) : Nat := 1 + 2 * (argHasDid r).toNat + argLen r

/-- The payload P of ENC_SF (R200). -/
def encSfPayload (s : State) : List Byte :=
  argSid s.regs ::
    ((if argHasDid s.regs then [hi8 (argSfDid s.regs), lo8 (argSfDid s.regs)] else [])
      ++ txBytes s 0 (argLen s.regs))

/-- The rule of ENC_SF (R200). -/
def encSfRule (s : State) : State :=
  if 7 < encSfLength s.regs then raise (.payloadTooLargeForSingleFrame (encSfLength s.regs)) s
  else
    finish .frame (BitVec.ofNat 32 (encSfLength s.regs)) 0 0 0 (putFout (sfFrame s.regs (encSfPayload s)) s)

/-- The rule of ENC_FF (R202). -/
def encFfRule (s : State) : State :=
  finish .frame 6 0 0 0
    (putFout (ffFrame s.regs (BitVec.ofNat 12 (argTotalLen s.regs)) (txBytes s 0 6)) s)

/-- The rule of ENC_CF (R204). -/
def encCfRule (s : State) : State :=
  finish .frame (BitVec.ofNat 32 (argLen s.regs)) 0 0 0
    (putFout (cfFrame s.regs (BitVec.ofNat 4 (argSeq s.regs)) (txBytes s 0 (argLen s.regs))) s)

/-- The rule of ENC_FC (R206). -/
def encFcRule (s : State) : State :=
  finish .frame 3 0 0 0
    (putFout (fcFrame s.regs (BitVec.ofNat 4 (argFs s.regs)) (argBs s.regs) (argSt s.regs)) s)

/-- The rule of CLASSIFY (R208). -/
def classifyRule (s : State) : State :=
  let f := frameFromRegs s.regs.fin
  match classifyFrame f with
  | .malformed => raise (.malformedPci (f.byte 0) f.dlc) s
  | .single len => finish .class 0 (BitVec.ofNat 32 len) 0 0 s
  | .first total => finish .class 1 (total.setWidth 32) 0 0 s
  | .consecutive sn => finish .class 2 (sn.setWidth 32) 0 0 s
  | .flowControl fs bs st =>
      finish .class 3 (fs.code.setWidth 32 ||| bs.setWidth 32 <<< 8 ||| st.setWidth 32 <<< 16)
        (stDecode st).2 (bit (stDecode st).1) s

/-- ENC_SF (41_frame_codec.md R200); it has no range check (30_encoding.md R134). -/
def execEncSf (s : State) : Out := .next (command opEncSf (fun _ => true) encSfRule s)

/-- ENC_FF (41_frame_codec.md R202). -/
def execEncFf (s : State) : Out := .next (command opEncFf encFfArgsOk encFfRule s)

/-- ENC_CF (41_frame_codec.md R204). -/
def execEncCf (s : State) : Out := .next (command opEncCf encCfArgsOk encCfRule s)

/-- ENC_FC (41_frame_codec.md R206). -/
def execEncFc (s : State) : Out := .next (command opEncFc encFcArgsOk encFcRule s)

/-- CLASSIFY (41_frame_codec.md R208). -/
def execClassify (s : State) : Out := .next (command opClassify classifyArgsOk classifyRule s)

end Sys2Proof.Machine
end

