-- ==== Sys2Proof/Machine/PayloadCodecs.lean ====
section
/-! DEFINITION. The Identifier Payload Codecs, the DID registry and the two lookup tables, with the six pure commands
DEC_ECU_INFO, DEC_SENSOR, ENC_THRESHOLDS, DEC_DTC_LIST, LUT_DTC, LUT_STATUS (45_payload_codecs.md). -/

namespace Sys2Proof.Machine

/-! ### ECU info (R362, R363) -/

/-- `ascii_clean(b)`: the bytes before the first NUL, without those above 0x7F (R363). -/
def asciiClean (b : List Byte) : List Byte :=
  (b.takeWhile fun c => c != 0).filter fun c => decide (c.toNat ≤ 0x7F)

/-- The total size S of a layout: 98 for LAYOUT_98 (1), 100 for LAYOUT_100 (R362). -/
def ecuSize (layout : BitVec 2) : Nat := if layout = 1 then 98 else 100

/-- The width of the field in a slot: vin 18, the others 20 (R362). -/
def ecuFieldWidth (slot : Nat) : Nat := if slot = 0 then 18 else 20

/-- The start of the field in a slot; LAYOUT_100 has the 2-byte gap [18, 20) before hw_pn (R362). -/
def ecuFieldStart (layout : BitVec 2) (slot : Nat) : Nat :=
  if slot = 0 then 0 else (if layout = 1 then 18 else 20) + 20 * (slot - 1)

/-- The text of the field in a slot (R362, R363). -/
def ecuField (s : State) (off slot : Nat) : List Byte :=
  asciiClean (rxBytes s (off + ecuFieldStart s.regs.cfg.ecuLayout slot) (ecuFieldWidth slot))

/-- OUTBUF as a successful ECU-info decode leaves it: the five texts at 0, 32, 64, 96 and 128, all else 0 (R362). -/
def putEcuFields (s : State) (off : Nat) : State :=
  storeOut (storeOut (storeOut (storeOut (storeOut (zeroOut s)
    0 (ecuField s off 0)) 32 (ecuField s off 1)) 64 (ecuField s off 2)) 96 (ecuField s off 3)) 128 (ecuField s off 4)

/-- The length of the text in a slot, as a result byte. -/
def ecuLen (s : State) (off slot : Nat) : Word32 := BitVec.ofNat 32 (ecuField s off slot).length

/-- `ecu_decode(off, n)` (R362). -/
def ecuDecode (off n : Nat) (s : State) : State :=
  let layout := s.regs.cfg.ecuLayout
  if layout = 0 ∨ layout = 3 then raise (.ecuLayoutNotSelected layout) s
  else if n < ecuSize layout then raise (.ecuInfoPayloadTooShort n) s
  else
    finish .ecuInfo
      (ecuLen s off 0 ||| ecuLen s off 1 <<< 8 ||| ecuLen s off 2 <<< 16 ||| ecuLen s off 3 <<< 24)
      (ecuLen s off 4) (layout.setWidth 32) 0 (putEcuFields s off)

/-! ### Sensor sample (R365) -/

/-- Whether a byte is printable ASCII (R365). -/
def printable (c : Byte) : Bool := decide (0x20 ≤ c.toNat) && decide (c.toNat ≤ 0x7E)

/-- RES1 of a sensor sample of `n` bytes whose third byte is `c`: quality, its presence in bit 8, and in bit 9 that a
third byte is there but not printable (R365). -/
def sensorQuality (n : Nat) (c : Byte) : Word32 :=
  if n < 3 then 0
  else if printable c then c.setWidth 32 ||| bit true <<< 8
  else bit true <<< 9

/-- `sensor_decode(off, n)` (R365). -/
def sensorDecode (off n : Nat) (s : State) : State :=
  if n < 2 then raise (.invalidSensorPayload n) s
  else
    finish .sensorSample ((rxByte s off ++ rxByte s (off + 1)).setWidth 32) (sensorQuality n (rxByte s (off + 2)))
      0 0 s

/-! ### The DID registry (R360) -/

/-- Whether a registry entry is valid and holds a DID. -/
def DidEntry.holds (e : DidEntry) (did : Did) : Bool := e.valid && e.did == did

/-- Whether one of the four sensor entries holds a DID. They all decode the same way, so which one is first makes no
difference. -/
def isSensorDid (r : HostRegs) (did : Did) : Bool :=
  r.didSensor0.holds did || r.didSensor1.holds did || r.didSensor2.holds did || r.didSensor3.holds did

/-- `registry_dispatch(did, off, n)` (R360). -/
def registryDispatch (did : Did) (off n : Nat) (s : State) : State :=
  if s.regs.didEcu.holds did then ecuDecode off n s
  else if isSensorDid s.regs did then sensorDecode off n s
  else finish .raw (BitVec.ofNat 32 off) (BitVec.ofNat 32 n) 0 0 s

/-! ### Sensor thresholds (R366) -/

/-- The four little-endian fields (R366, 30_encoding.md R138). -/
def thresholdBytes (r : HostRegs) : List Byte :=
  [ lo8 (argUltraMin r), hi8 (argUltraMin r), lo8 (argUltraMax r), hi8 (argUltraMax r),
    lo8 (argTofMin r), hi8 (argTofMin r), lo8 (argTofMax r), hi8 (argTofMax r) ]

/-- The rule of ENC_THRESHOLDS (R366). -/
def encThresholdsRule (s : State) : State :=
  finish .bytes 8 0 0 0 (storeTx s 0 (thresholdBytes s.regs))

/-! ### DTC list (R369) -/

/-- `DtcRecord{code, status}` (R369). -/
structure DtcRecord where
  code : BitVec 24
  status : Byte
  deriving DecidableEq, Repr

/-- `BE24(a, b, c)` (00_scope.md R16). -/
def be24 (a b c : Byte) : BitVec 24 := a ++ b ++ c

/-- The records in the bytes after the availability mask: fixed groups of 4 bytes, code and status, "until fewer than 4
bytes remain"; a dangling partial group is discarded (R369, 30_encoding.md R138). -/
def dtcGroups : List Byte → List DtcRecord
  | g0 :: g1 :: g2 :: g3 :: rest => { code := be24 g0 g1 g2, status := g3 } :: dtcGroups rest
  | _ => []

/-- The records of `dtc_parse(D)` (R369). -/
def dtcRecords (d : List Byte) : List DtcRecord := dtcGroups (d.drop 1)

/-- The mask and its presence of `dtc_parse(D)`, as RES2 of a DTC list has them (R369, R368). -/
def dtcMask : List Byte → Word32
  | [] => 0
  | mask :: _ => mask.setWidth 32 ||| bit true <<< 8

/-- Finish with the DTC list in RXBUF[off .. off+n), the data after the subfunction echo (R368, 44_uds_session.md
R331): the host has the number of records, the RXBUF index of record 0 and the mask. -/
def dtcList (off n : Nat) (s : State) : State :=
  let d := rxBytes s off n
  finish .dtcList (BitVec.ofNat 32 (dtcRecords d).length) (BitVec.ofNat 32 (off + 1)) (dtcMask d) 0 s

/-! ### Description lookups (R370 to R373) -/

/-- One uppercase hexadecimal digit in ASCII (R372). -/
def hexDigit (d : Nat) : Byte := BitVec.ofNat 8 (if d < 10 then 0x30 + d else 0x41 + (d - 10))

/-- `hex_upper(v, w)`: `w` digits, the most significant first (R372). -/
def hexUpper (v : Nat) : Nat → List Byte
  | 0 => []
  | w + 1 => hexDigit (v / 16 ^ w % 16) :: hexUpper v w

/-- "unknown code 0x" in ASCII (R371). -/
def unknownCode : List Byte :=
  [0x75, 0x6E, 0x6B, 0x6E, 0x6F, 0x77, 0x6E, 0x20, 0x63, 0x6F, 0x64, 0x65, 0x20, 0x30, 0x78]

/-- "unknown status 0x" in ASCII (R373). -/
def unknownStatus : List Byte :=
  [0x75, 0x6E, 0x6B, 0x6E, 0x6F, 0x77, 0x6E, 0x20, 0x73, 0x74, 0x61, 0x74, 0x75, 0x73, 0x20, 0x30, 0x78]

/-- The text of a lookup and whether it was in the table: the table's text, or the rendering of a miss (R371,
R373). -/
def describe (entry : Option DescText) (miss : List Byte) : List Byte × Bool :=
  match entry with
  | some t => (t.bytes, true)
  | none => (miss, false)

/-- The description of a DTC code (R371). -/
def dtcDescription (code : BitVec 24) : List Byte × Bool :=
  describe (Config.dtcText code) (unknownCode ++ hexUpper code.toNat 6)

/-- The description of a status (R373). -/
def statusDescription (status : BitVec 8) : List Byte × Bool :=
  describe (Config.statusText status) (unknownStatus ++ hexUpper status.toNat 2)

/-- OUTBUF <- the text and zeros; finish with its length and whether it was a hit (R371, R373). -/
def textResult (d : List Byte × Bool) (s : State) : State :=
  finish .text (BitVec.ofNat 32 d.1.length) (bit d.2) 0 0 (storeOut (zeroOut s) 0 d.1)

/-! ### The commands -/

/-- DEC_ECU_INFO (R361). -/
def execDecEcuInfo (s : State) : Out :=
  .next (command opDecEcuInfo rxRangeArgsOk (fun t => ecuDecode (argOff t.regs) (argLen t.regs) t) s)

/-- DEC_SENSOR (R364). -/
def execDecSensor (s : State) : Out :=
  .next (command opDecSensor rxRangeArgsOk (fun t => sensorDecode (argOff t.regs) (argLen t.regs) t) s)

/-- ENC_THRESHOLDS (R366). -/
def execEncThresholds (s : State) : Out :=
  .next (command opEncThresholds (fun _ => true) encThresholdsRule s)

/-- DEC_DTC_LIST (R368). -/
def execDecDtcList (s : State) : Out :=
  .next (command opDecDtcList rxRangeArgsOk (fun t => dtcList (argOff t.regs) (argLen t.regs) t) s)

/-- LUT_DTC (R371). -/
def execLutDtc (s : State) : Out :=
  .next (command opLutDtc (fun _ => true) (fun t => textResult (dtcDescription (argCode t.regs)) t) s)

/-- LUT_STATUS (R373). -/
def execLutStatus (s : State) : Out :=
  .next (command opLutStatus (fun _ => true) (fun t => textResult (statusDescription (argStatus t.regs)) t) s)

end Sys2Proof.Machine
end

