-- ==== Sys2Proof/Machine/Responses.lean ====
section
/-! DEFINITION. The response half of the UDS Session (44_uds_session.md): the two windows, the validation every
operation shares, the four completions, and the five response rows of the opcode table. -/

namespace Sys2Proof.Machine

/-! ### Windows -/

/-- `rasm_start()`: open the response window (42_reassembly.md R243, R320). -/
def rasmStart (s : State) : State :=
  { s with ctl := .respWait, timer := { s.timer with tmr := 0, lim := s.timer.respLim } }

/-- Open the acknowledgement window (R321). -/
def ackStart (s : State) : State :=
  { s with ctl := .ackWait, timer := { s.timer with tmr := 0, lim := s.timer.respLim } }

/-! ### Validation (R324) -/

/-- The error of a response whose SID is not the expected one: the SID, and the NRC of a negative response of at least
3 bytes (R324, 60_exceptions.md R405). -/
def wrongSid (s : State) : CmdError :=
  if rxByte s 0 = sidNegative ∧ 3 ≤ s.rxLen.toNat then .unexpectedServiceId (rxByte s 0) (rxByte s 2) true false
  else .unexpectedServiceId (rxByte s 0) 0 false false

/-- `validate_sid(exp)` on RXBUF[0..RX_LEN), then the rest of the completion rule (R324). -/
def validateSid (expected : Byte) (rest : State → State) (s : State) : State :=
  if s.rxLen.toNat = 0 then raise (.unexpectedServiceId 0 0 false true) s
  else if rxByte s 0 ≠ expected then raise (wrongSid s) s
  else rest s

/-! ### Completions -/

/-- READ_DID after the SID check: the DID echo (R325), then the registry (R323). -/
def readDidEcho (s : State) : State :=
  if s.rxLen.toNat < 3 then raise (.didMismatch 0 true) s
  else if rxByte s 1 ++ rxByte s 2 ≠ s.didCur then raise (.didMismatch (rxByte s 1 ++ rxByte s 2) false) s
  else registryDispatch s.didCur 3 (s.rxLen.toNat - 3) s

/-- READ_DID completion (R323). -/
def readDidComplete (s : State) : State := validateSid (positiveSid sidReadDid) readDidEcho s

/-- READ_DTC completion (R331). -/
def readDtcComplete (s : State) : State :=
  validateSid (positiveSid sidReadDtc)
    (fun t =>
      if t.rxLen.toNat < 2 then raise (.dtcPayloadMalformed t.rxLen.toNat) t
      else dtcList 2 (t.rxLen.toNat - 2) t) s

/-- WRITE_DID acknowledgement (R327). -/
def writeDidAck (s : State) : State :=
  validateSid (positiveSid sidWriteDid)
    (fun t =>
      if t.rxLen.toNat = 3 ∧ rxByte t 1 = hi8 t.didCur ∧ rxByte t 2 = lo8 t.didCur then
        finish .ack 0x6E (t.didCur.setWidth 32) 0 0 t
      else raise (.writeAckNotObserved false) t) s

/-- CLEAR_DTC acknowledgement (R335). -/
def clearDtcAck (s : State) : State :=
  validateSid (positiveSid sidClearDtc) (finish .ack 0x54 0 0 0) s

/-- What `rasm_complete()` writes before its case on `op`: `rasm` Complete, RX_LEN, and the end of the specified part
of RXBUF (42_reassembly.md R250, 10_state.md R55). -/
def rasmTaken (s : State) : State :=
  forgetRx { s with rasm := { s.rasm with phase := .complete }, rxLen := s.rasm.len } s.rasm.len.toNat

/-- `rasm_complete()` (42_reassembly.md R250). -/
def rasmComplete (s : State) : Out :=
  let t := rasmTaken s
  if s.op = opTpRecv then .next (finish .payload (s.rasm.len.setWidth 32) (bit s.rasm.mf) 0 0 t)
  else if s.op = opReadDid then .next (readDidComplete t)
  else if s.op = opReadDtc then .next (readDtcComplete t)
  else .fault .opHasNoCompletionRule

/-- A whole payload becomes the reassembled one: RXBUF[0..L) <- payload; rasm_len <- L (42_reassembly.md R245). -/
def takePayload (payload : List Byte) (s : State) : State :=
  storeRx { s with rasm := { s.rasm with len := BitVec.ofNat 12 payload.length } } 0 payload

/-- A Single Frame's payload in the acknowledgement window (R336). -/
def ackSingle (payload : List Byte) (s : State) : State :=
  let t := rasmTaken (takePayload payload s)
  if s.op = opWriteDid then writeDidAck t else clearDtcAck t

/-- A complete response payload handed to the Session in the window that is open; with no window open it is not
taken. -/
def responseArrived (payload : List Byte) (s : State) : Out :=
  match s.ctl with
  | .respWait => rasmComplete (takePayload payload s)
  | .ackWait => .next (ackSingle payload s)
  | .idle => .next s
  | .txSf => .next s
  | .txFf => .next s
  | .fcWait => .next s
  | .txCf => .next s
  | .stWait => .next s
  | .rxFc => .next s

/-! ### The response rows of the opcode table. Log entry 9 says how a step comes to run them. -/

/-- RSP_READ_DID: a response payload `62 ...` (R323). -/
def execRspReadDid (rest : List Byte) (s : State) : Out :=
  responseArrived (positiveSid sidReadDid :: rest) s

/-- RSP_WRITE_DID: a response payload `6E ...` (R327). -/
def execRspWriteDid (rest : List Byte) (s : State) : Out :=
  responseArrived (positiveSid sidWriteDid :: rest) s

/-- RSP_READ_DTC: a response payload `59 ...` (R331). -/
def execRspReadDtc (rest : List Byte) (s : State) : Out :=
  responseArrived (positiveSid sidReadDtc :: rest) s

/-- RSP_CLEAR_DTC: a response payload `54 ...` (R335). -/
def execRspClearDtc (rest : List Byte) (s : State) : Out :=
  responseArrived (positiveSid sidClearDtc :: rest) s

/-- RSP_NEGATIVE: a response payload `7F request_SID NRC` (R324, 60_exceptions.md R405). -/
def execRspNegative (rest : List Byte) (s : State) : Out :=
  responseArrived (sidNegative :: rest) s

end Sys2Proof.Machine
end

