-- ==== Sys2Proof/Machine/Reassembly.lean ====
section
/-! DEFINITION. The Reassembly Engine and TP_RECV (42_reassembly.md). -/

namespace Sys2Proof.Machine

/-- `rasm_fail(E, detail)` (R252). RXBUF[0..rasm_len) keeps the accumulated bytes; from there on RXBUF is unspecified
(10_state.md R55, 93_implementation_defined.md row 11). Log entry 2. -/
def rasmFail (e : CmdError) (s : State) : State :=
  raise e (forgetRx { s with rasm := { s.rasm with phase := .failed, why := errorCode e } } s.rasm.len.toNat)

/-- RESP_WAIT, a Single Frame (R245, R251). -/
def respSingle (payload : List Byte) (s : State) : Out :=
  match s.rasm.phase with
  | .idle => rasmComplete (takePayload payload { s with rasm := { s.rasm with mf := false } })
  | .accumulating => .next (rasmFail (.sequenceError s.rasm.seq (BitVec.ofNat 4 payload.length) 0) s)
  | .complete => .fault .rasmHasNoFrameRule
  | .failed => .fault .rasmHasNoFrameRule

/-- The state a First Frame starts (R246). -/
def startAccumulating (total : BitVec 12) (six : List Byte) (s : State) : State :=
  storeRx { s with rasm := { s.rasm with phase := .accumulating, len := 6, exp := total, seq := 1, mf := true } } 0 six

/-- Idle, a First Frame (R246). -/
def acceptFirst (total : BitVec 12) (six : List Byte) (s : State) : State :=
  if total.toNat < 8 then rasmFail (.malformedPci (pciByte 1 (total.extractLsb' 8 4)) 8) s
  else
    let t := startAccumulating total six s
    if t.regs.cfg.rxFcEn then emit (fcFrame t.regs 0 0 0) .rxFc t else t

/-- RESP_WAIT, a First Frame (R246, R251). -/
def respFirst (total : BitVec 12) (six : List Byte) (s : State) : Out :=
  match s.rasm.phase with
  | .idle => .next (acceptFirst total six s)
  | .accumulating => .next (rasmFail (.sequenceError s.rasm.seq (total.extractLsb' 8 4) 1) s)
  | .complete => .fault .rasmHasNoFrameRule
  | .failed => .fault .rasmHasNoFrameRule

/-- The bytes of a Consecutive Frame that the message still lacks (R248). -/
def lacking (data : List Byte) (s : State) : List Byte := data.take (s.rasm.exp.toNat - s.rasm.len.toNat)

/-- Append the bytes of a Consecutive Frame in sequence (R248). -/
def appendCf (data : List Byte) (s : State) : State :=
  storeRx
    { s with
      rasm :=
        { s.rasm with
          len := BitVec.ofNat 12 (s.rasm.len.toNat + (lacking data s).length)
          seq := s.rasm.seq + 1 } }
    s.rasm.len.toNat (lacking data s)

/-- Accumulating, a Consecutive Frame (R247, R248). -/
def acceptConsecutive (sn : BitVec 4) (data : List Byte) (s : State) : Out :=
  if sn ≠ s.rasm.seq then .next (rasmFail (.sequenceError s.rasm.seq sn 2) s)
  else
    let t := appendCf data s
    if t.rasm.len = t.rasm.exp then rasmComplete t else .next t

/-- RESP_WAIT, a Consecutive Frame: ignored in Idle (R249), else R247, R248. -/
def respConsecutive (sn : BitVec 4) (data : List Byte) (s : State) : Out :=
  match s.rasm.phase with
  | .idle => .next s
  | .accumulating => acceptConsecutive sn data s
  | .complete => .fault .rasmHasNoFrameRule
  | .failed => .fault .rasmHasNoFrameRule

/-- RESP_WAIT, a Flow Control frame: ignored (R249). -/
def respFlowControl (s : State) : Out :=
  match s.rasm.phase with
  | .idle => .next s
  | .accumulating => .next s
  | .complete => .fault .rasmHasNoFrameRule
  | .failed => .fault .rasmHasNoFrameRule

/-- TxAck(1) in RX_FC (R254). -/
def rxFcAcked (s : State) : State := { s with ctl := .respWait }

/-- TP_RECV (R255). -/
def execTpRecv (s : State) : Out := .next (command opTpRecv (fun _ => true) (busStart rasmStart) s)

end Sys2Proof.Machine
end

