-- ==== Sys2Proof/Machine/Transmitter.lean ====
section
/-! DEFINITION. The Flow-Controlled Transmitter and TP_SEND (43_transmitter.md). -/

namespace Sys2Proof.Machine

/-- P[i], the payload the Transmitter sends: the header, then TXBUF (10_state.md R58). -/
def payloadByte (s : State) (i : Nat) : Byte :=
  if i < s.tx.hdrLen.toNat then s.tx.hdr.getD i 0 else txByte s (i - s.tx.hdrLen.toNat)

/-- `pbytes(i, n)` (R281). -/
def pbytes (s : State) (i n : Nat) : List Byte := (List.range n).map fun j => payloadByte s (i + j)

/-- `tx_start()`: the Single Frame path or the First Frame path (R280, R282, R283). -/
def txStart (s : State) : State :=
  if s.tx.len.toNat ≤ 7 then
    emit (sfFrame s.regs (pbytes s 0 s.tx.len.toNat)) .txSf { s with tx := { s.tx with pos := s.tx.len } }
  else
    emit (ffFrame s.regs s.tx.len (pbytes s 0 6)) .txFf { s with tx := { s.tx with pos := 6 } }

/-- `enter_fc_wait()` (R286). -/
def enterFcWait (s : State) : State :=
  { s with
    ctl := .fcWait
    timer := { s.timer with tmr := 0, lim := sat32 (s.regs.fcTimeout.toNat * s.regs.tuUs.toNat) }
    tx := { s.tx with nFcWaits := s.tx.nFcWaits + 1 } }

/-- The number of payload bytes of the next Consecutive Frame (R292). -/
def cfCount (s : State) : Nat := min 7 (s.tx.len.toNat - s.tx.pos.toNat)

/-- `send_cf()` (R292). -/
def sendCf (s : State) : State :=
  emit (cfFrame s.regs s.tx.seq (pbytes s s.tx.pos.toNat (cfCount s))) .txCf
    { s with tx := { s.tx with pos := BitVec.ofNat 12 (s.tx.pos.toNat + cfCount s) } }

/-- `tx_done()` (R296). -/
def txDone (s : State) : Out :=
  if s.op = opTpSend then
    .next (finish .sent (s.tx.nFrames.setWidth 32) (s.tx.nFcWaits.setWidth 32) (s.tx.len.setWidth 32) 0 s)
  else if s.op = opReadDid ∨ s.op = opReadDtc then .next (rasmStart s)
  else if s.op = opWriteDid ∨ s.op = opClearDtc then .next (ackStart s)
  else .fault .opHasNoCompletionRule

/-- TxAck(1) in TX_SF (R284). -/
def txSfAcked (s : State) : Out := txDone { s with tx := { s.tx with nFrames := 1 } }

/-- TxAck(1) in TX_FF (R285). -/
def txFfAcked (s : State) : State := enterFcWait { s with tx := { s.tx with nFrames := 1 } }

/-- The counts of TxAck(1) in TX_CF (R293). -/
def countCf (s : State) : State :=
  { s with
    tx :=
      { s.tx with
        nFrames := s.tx.nFrames + 1
        seq := s.tx.seq + 1
        bsCnt := if s.tx.bs ≠ 0 then s.tx.bsCnt + 1 else s.tx.bsCnt } }

/-- Wait out the separation time (R293, R294). -/
def stWaitStart (s : State) : State :=
  { s with ctl := .stWait, timer := { s.timer with tmr := 0, lim := s.tx.stUs } }

/-- TxAck(1) in TX_CF (R293). -/
def txCfAcked (s : State) : Out :=
  let t := countCf s
  if t.tx.pos = t.tx.len then txDone t
  else if t.tx.bs ≠ 0 ∧ t.tx.bsCnt = t.tx.bs then .next (enterFcWait t)
  else if t.tx.stUs = 0 then .next (sendCf t)
  else .next (stWaitStart t)

/-- A Flow Control frame in FC_WAIT: ContinueToSend (R288), Wait or Overflow (R289). -/
def fcReceived (fs : FlowStatus) (bs st : Byte) (s : State) : State :=
  match fs with
  | .continueToSend => sendCf { s with tx := { s.tx with bs := bs, stUs := (stDecode st).2, bsCnt := 0 } }
  | .wait => raise (.flowControlRejected .wait) s
  | .overflow => raise (.flowControlRejected .overflow) s

/-- The start rule of TP_SEND (R295). -/
def tpSendStart (s : State) : State :=
  txStart { s with tx := { s.tx with hdrLen := 0, len := BitVec.ofNat 12 (argLen s.regs) } }

/-- TP_SEND (R295). -/
def execTpSend (s : State) : Out := .next (command opTpSend tpSendArgsOk (busStart tpSendStart) s)

end Sys2Proof.Machine
end

