-- ==== Sys2Proof/Machine/PciFrames.lean ====
section
/-! DEFINITION. The four PCI rows of the opcode table: what the block does with a received frame of each type, in every
control state (40_command_interface.md R179), and with a malformed frame. -/

namespace Sys2Proof.Machine

/-- PCI_SF: ignored in FC_WAIT (43_transmitter.md R290); 42_reassembly.md R244, R245, R251 in RESP_WAIT;
44_uds_session.md R336 in ACK_WAIT. The padding is ignored (30_encoding.md R121). -/
def execPciSf (id : CanId) (payload : List Byte) (s : State) : Out :=
  whenReceived id .next (respSingle payload) (fun t => .next (ackSingle payload t)) s

/-- PCI_FF: ignored in FC_WAIT (43_transmitter.md R290); 42_reassembly.md R246, R251 in RESP_WAIT; discarded in
ACK_WAIT (44_uds_session.md R336). -/
def execPciFf (id : CanId) (total : BitVec 12) (six : List Byte) (s : State) : Out :=
  whenReceived id .next (respFirst total six) .next s

/-- PCI_CF: ignored in FC_WAIT (43_transmitter.md R290); 42_reassembly.md R247, R248, R249 in RESP_WAIT; discarded in
ACK_WAIT (44_uds_session.md R336). -/
def execPciCf (id : CanId) (sn : BitVec 4) (data : List Byte) (s : State) : Out :=
  whenReceived id .next (respConsecutive sn data) .next s

/-- PCI_FC: 43_transmitter.md R287, R288, R289 in FC_WAIT; ignored in RESP_WAIT (42_reassembly.md R249); discarded in
ACK_WAIT (44_uds_session.md R336). The padding is ignored (30_encoding.md R124). -/
def execPciFc (id : CanId) (fs : FlowStatus) (bs st : Byte) (s : State) : Out :=
  whenReceived id (fun t => .next (fcReceived fs bs st t)) respFlowControl .next s

/-- A frame that classifies as Malformed, in every waiting state (60_exceptions.md R403; 42_reassembly.md R244,
43_transmitter.md R287, 44_uds_session.md R336). -/
def malformedReceived (f : Frame) (s : State) : Out :=
  let e := CmdError.malformedPci (f.byte 0) f.dlc
  whenReceived f.id (fun t => .next (raise e t)) (fun t => .next (rasmFail e t)) (fun t => .next (raise e t)) s

end Sys2Proof.Machine
end

