-- ==== Sys2Proof/Machine/Session.lean ====
section
/-! DEFINITION. The request half of the UDS Session (44_uds_session.md): READ_DID, WRITE_DID, READ_DTC, CLEAR_DTC, and
the four request rows of the opcode table. -/

namespace Sys2Proof.Machine

/-- hdr <- header; hdr_len; tx_len <- hdr_len + dataLen; tx_start() (R322, R326, R330, R334). -/
def sendRequest (header : List Byte) (dataLen : Nat) (s : State) : State :=
  txStart
    { s with
      tx :=
        { s.tx with
          hdr := header
          hdrLen := BitVec.ofNat 2 header.length
          len := BitVec.ofNat 12 (header.length + dataLen) } }

/-- The request of READ_DID (R322). -/
def requestReadDid (did : Did) (s : State) : State :=
  sendRequest [sidReadDid, hi8 did, lo8 did] 0 { s with didCur := did }

/-- The request of WRITE_DID with `len` data bytes in TXBUF (R326). -/
def requestWriteDid (did : Did) (len : Nat) (s : State) : State :=
  sendRequest [sidWriteDid, hi8 did, lo8 did] len { s with didCur := did }

/-- The request of READ_DTC; R330 sends subfunction 0x02 and mask 0xFF. -/
def requestReadDtc (subfunction mask : Byte) (s : State) : State :=
  sendRequest [sidReadDtc, subfunction, mask] 0 s

/-- The request of CLEAR_DTC; R334 sends group 0xFF. -/
def requestClearDtc (group : Byte) (s : State) : State := sendRequest [sidClearDtc, group] 0 s

/-- READ_DID (R322). -/
def execReadDid (s : State) : Out :=
  .next (command opReadDid (fun _ => true) (busStart fun t => requestReadDid (argDid t.regs) t) s)

/-- WRITE_DID (R326). -/
def execWriteDid (s : State) : Out :=
  .next (command opWriteDid writeDidArgsOk
    (busStart fun t => requestWriteDid (argDid t.regs) (argLen t.regs) t) s)

/-- READ_DTC (R330). -/
def execReadDtc (s : State) : Out :=
  .next (command opReadDtc (fun _ => true) (busStart (requestReadDtc 0x02 0xFF)) s)

/-- CLEAR_DTC (R334). -/
def execClearDtc (s : State) : Out :=
  .next (command opClearDtc (fun _ => true) (busStart (requestClearDtc 0xFF)) s)

/-! ### The request rows of the opcode table: the request phase of a command whose bus start (40_command_interface.md
R175) has run. Log entry 9 says how a step comes to run them. -/

/-- REQ_READ_DID: send `22 did_hi did_lo` (R322). -/
def execReqReadDid (did : Did) (s : State) : Out := .next (requestReadDid did s)

/-- REQ_WRITE_DID: send `2E did_hi did_lo` and the data, which stand in TXBUF[0..LEN) (R326). -/
def execReqWriteDid (did : Did) (data : List Byte) (s : State) : Out :=
  .next (requestWriteDid did data.length (storeTx s 0 data))

/-- REQ_READ_DTC: send `19 subfunction mask` (R330). -/
def execReqReadDtc (subfunction mask : Byte) (s : State) : Out := .next (requestReadDtc subfunction mask s)

/-- REQ_CLEAR_DTC: send `14 group` (R334). -/
def execReqClearDtc (group : Byte) (s : State) : Out := .next (requestClearDtc group s)

end Sys2Proof.Machine
end

