-- ==== Sys2Proof/Machine/Dispatch.lean ====
section
/-! DEFINITION. The dispatch: one arm per row of spec/opcode_table.json. -/

namespace Sys2Proof.Machine

def exec (i : Instr) (s : State) : Host.Outcome State Fault Refusal :=
  match i with
  | .encSf => Sys2Proof.Machine.execEncSf s
  | .encFf => Sys2Proof.Machine.execEncFf s
  | .encCf => Sys2Proof.Machine.execEncCf s
  | .encFc => Sys2Proof.Machine.execEncFc s
  | .classify => Sys2Proof.Machine.execClassify s
  | .tpRecv => Sys2Proof.Machine.execTpRecv s
  | .tpSend => Sys2Proof.Machine.execTpSend s
  | .readDid => Sys2Proof.Machine.execReadDid s
  | .writeDid => Sys2Proof.Machine.execWriteDid s
  | .readDtc => Sys2Proof.Machine.execReadDtc s
  | .clearDtc => Sys2Proof.Machine.execClearDtc s
  | .decEcuInfo => Sys2Proof.Machine.execDecEcuInfo s
  | .decSensor => Sys2Proof.Machine.execDecSensor s
  | .encThresholds => Sys2Proof.Machine.execEncThresholds s
  | .decDtcList => Sys2Proof.Machine.execDecDtcList s
  | .lutDtc => Sys2Proof.Machine.execLutDtc s
  | .lutStatus => Sys2Proof.Machine.execLutStatus s
  | .pciSf id payload _ => Sys2Proof.Machine.execPciSf id payload s
  | .pciFf id total six => Sys2Proof.Machine.execPciFf id total six s
  | .pciCf id sn data => Sys2Proof.Machine.execPciCf id sn data s
  | .pciFc id fs bs st _ => Sys2Proof.Machine.execPciFc id fs bs st s
  | .reqReadDid did => Sys2Proof.Machine.execReqReadDid did s
  | .reqWriteDid did data => Sys2Proof.Machine.execReqWriteDid did data s
  | .reqReadDtc sub mask => Sys2Proof.Machine.execReqReadDtc sub mask s
  | .reqClearDtc group => Sys2Proof.Machine.execReqClearDtc group s
  | .rspReadDid rest => Sys2Proof.Machine.execRspReadDid rest s
  | .rspWriteDid rest => Sys2Proof.Machine.execRspWriteDid rest s
  | .rspReadDtc rest => Sys2Proof.Machine.execRspReadDtc rest s
  | .rspClearDtc rest => Sys2Proof.Machine.execRspClearDtc rest s
  | .rspNegative rest => Sys2Proof.Machine.execRspNegative rest s

end Sys2Proof.Machine
end

