-- ==== Sys2Proof/Machine/HostPort.lean ====
section
/-! DEFINITION. The host port: the address map and the word reads and writes of 20_memory.md. -/

namespace Sys2Proof.Machine

/-- Whether an access is one the port carries: an aligned 32-bit word below 0x4000 (R80, R83). -/
def hostAccessOk (addr : BitVec 16) (width : Nat) : Bool :=
  width == 4 && addr.toNat % 4 == 0 && decide (addr.toNat < hostEnd)

/-- CFG as a word (10_state.md R42); reserved bits read 0. -/
def cfgWord (c : Cfg) : Word32 :=
  c.ecuLayout.setWidth 32 ||| bit c.padEn <<< 2 ||| bit c.rxFcEn <<< 3 ||| c.padByte.setWidth 32 <<< 8

/-- CFG from a written word; reserved bits are ignored (10_state.md R42). -/
def cfgOfWord (v : Word32) : Cfg where
  ecuLayout := v.extractLsb' 0 2
  padEn := v.getLsbD 2
  rxFcEn := v.getLsbD 3
  padByte := v.extractLsb' 8 8

/-- A registry entry as a word: DID in [15:0], V in [16] (10_state.md R47, R48). -/
def didWord (e : DidEntry) : Word32 := e.did.setWidth 32 ||| bit e.valid <<< 16

/-- A registry entry from a written word. -/
def didOfWord (v : Word32) : DidEntry where
  did := v.extractLsb' 0 16
  valid := v.getLsbD 16

/-- The readable registers and their words, in the order of the map (20_memory.md R90). CMD reads 0. -/
def registerWords (s : State) : List (Nat × Word32) :=
  [ (0x000, 0), (0x004, statusWord s), (0x008, s.status.errDetail), (0x00C, cfgWord s.regs.cfg),
    (0x010, s.regs.reqId.setWidth 32), (0x014, s.regs.respId.setWidth 32), (0x018, s.regs.tuUs),
    (0x01C, s.regs.fcTimeout.setWidth 32), (0x020, s.regs.defTimeout.setWidth 32),
    (0x024, didWord s.regs.didEcu), (0x028, didWord s.regs.didSensor0), (0x02C, didWord s.regs.didSensor1),
    (0x030, didWord s.regs.didSensor2), (0x034, didWord s.regs.didSensor3),
    (0x040, s.regs.arg0), (0x044, s.regs.arg1), (0x048, s.regs.arg2), (0x04C, s.regs.arg3),
    (0x050, s.res.r0), (0x054, s.res.r1), (0x058, s.res.r2), (0x05C, s.res.r3),
    (0x060, s.res.kind.setWidth 32), (0x064, s.rxLen.setWidth 32),
    (0x070, s.regs.fin.id.setWidth 32), (0x074, s.regs.fin.dlc.setWidth 32), (0x078, s.regs.fin.d03),
    (0x07C, s.regs.fin.d47),
    (0x080, s.fout.id.setWidth 32), (0x084, s.fout.dlc.setWidth 32), (0x088, s.fout.d03), (0x08C, s.fout.d47) ]

/-- The word of a register offset; an offset no rule names reads 0 (10_state.md R65). -/
def registerWord (s : State) (a : Nat) : Word32 :=
  match (registerWords s).find? (fun row => row.1 == a) with
  | some row => row.2
  | none => 0

/-- Whether an offset is in TXBUF, RXBUF or OUTBUF (20_memory.md R90). -/
def inBuffer (a : Nat) : Bool := decide (txBase ≤ a) && decide (a < outEnd)

/-- `MemRead(addr, 4)` for an access the port carries (20_memory.md R81). -/
def memRead (s : State) (a : Nat) : Word32 := if inBuffer a then wordAt s a else registerWord s a

/-- The named fields of a read-write register take the bits of `v`; at every other offset nothing changes (20_memory.md
R82). -/
def registerWrite (a : Nat) (v : Word32) (r : HostRegs) : HostRegs :=
  if a = 0x00C then { r with cfg := cfgOfWord v }
  else if a = 0x010 then { r with reqId := v.extractLsb' 0 11 }
  else if a = 0x014 then { r with respId := v.extractLsb' 0 11 }
  else if a = 0x018 then { r with tuUs := v }
  else if a = 0x01C then { r with fcTimeout := v.extractLsb' 0 8 }
  else if a = 0x020 then { r with defTimeout := v.extractLsb' 0 8 }
  else if a = 0x024 then { r with didEcu := didOfWord v }
  else if a = 0x028 then { r with didSensor0 := didOfWord v }
  else if a = 0x02C then { r with didSensor1 := didOfWord v }
  else if a = 0x030 then { r with didSensor2 := didOfWord v }
  else if a = 0x034 then { r with didSensor3 := didOfWord v }
  else if a = 0x040 then { r with arg0 := v }
  else if a = 0x044 then { r with arg1 := v }
  else if a = 0x048 then { r with arg2 := v }
  else if a = 0x04C then { r with arg3 := v }
  else if a = 0x070 then { r with fin := { r.fin with id := v.extractLsb' 0 11 } }
  else if a = 0x074 then { r with fin := { r.fin with dlc := v.extractLsb' 0 4 } }
  else if a = 0x078 then { r with fin := { r.fin with d03 := v } }
  else if a = 0x07C then { r with fin := { r.fin with d47 := v } }
  else r

/-- The four bytes of a word as a host write stores them (20_memory.md R82). -/
def bytesOfWord (v : Word32) : List Byte := [wordByte v 0, wordByte v 1, wordByte v 2, wordByte v 3]

/-- `MemWrite(addr, 4, v)` for an access the port carries and an offset other than CMD (20_memory.md R82). -/
def hostStore (a : Nat) (v : Word32) (s : State) : State :=
  if busy s then s
  else if txBase ≤ a ∧ a < outBase then storeAt s a (bytesOfWord v)
  else { s with regs := registerWrite a v s.regs }

end Sys2Proof.Machine
end

