-- ==== Sys2Proof/Machine/Events.lean ====
section
/-! DEFINITION. The events of 40_command_interface.md R170, each handled whole, and the timeout evaluation of
60_exceptions.md R421 that follows every event except Reset and HostRead. -/

namespace Sys2Proof.Machine

/-- The error of an acknowledgement window that ran out (44_uds_session.md R328, R337). -/
def ackTimeout (s : State) : CmdError :=
  if s.op = opWriteDid then .writeAckNotObserved true else .timeout 0 false

/-- What an expired wait does (60_exceptions.md R421). -/
def expire (s : State) : State :=
  match s.ctl with
  | .fcWait => raise (.flowControlTimeout s.tx.pos) s
  | .stWait => sendCf s
  | .respWait => rasmFail (.timeout s.rasm.len s.rasm.mf) s
  | .ackWait => raise (ackTimeout s) s
  | .idle => s
  | .txSf => s
  | .txFf => s
  | .txCf => s
  | .rxFc => s

/-- The timeout evaluation (60_exceptions.md R421). -/
def timeoutEval (s : State) : State :=
  if s.timer.lim.toNat ≤ s.timer.tmr.toNat then expire s else s

/-- An event's outcome followed by the timeout evaluation. -/
def settle : Out → Out
  | .next s => .next (timeoutEval s)
  | .fault r => .fault r
  | .refused r => .refused r

/-- A write to CMD: the command of the word, or a reserved opcode (40_command_interface.md R172, R173, R174). -/
def commandWritten (v : Word32) (s : State) : Out :=
  match decodeCommand v with
  | .ok i => exec i s
  | .error _ => .next (reservedCommand (commandOpcode v) s)

/-- `HostWrite(addr, v)` (20_memory.md R82, R83). -/
def hostWrite (addr : BitVec 16) (width : Nat) (v : Word32) (s : State) : Out :=
  if hostAccessOk addr width then
    if addr.toNat = 0 then settle (commandWritten v s) else settle (.next (hostStore addr.toNat v s))
  else .refused .hostAccessOutsideContract

/-- `HostRead(addr)` (20_memory.md R81, R83): the word goes to the host and no state of the block changes. -/
def hostRead (addr : BitVec 16) (width : Nat) (s : State) : Out :=
  if hostAccessOk addr width then
    .next { s with env := { s.env with hostRdata := memRead s addr.toNat } }
  else .refused .hostAccessOutsideContract

/-- A frame taken from the RX port (40_command_interface.md R179). -/
def frameReceived (f : Frame) (s : State) : Out :=
  match decodeFrame f with
  | .ok i => exec i s
  | .error _ => malformedReceived f s

/-- `Rx(f)`, `f` the frame at the head of the external FIFO; while `rx_ready` = 0 the frames stay in the FIFO
(10_state.md R62). -/
def rxEvent (s : State) : Out :=
  if rxReady s.ctl then
    match s.env.rxFifo with
    | [] => .next s
    | f :: fs => settle (frameReceived f { s with env := { s.env with rxFifo := fs } })
  else .next s

/-- `tx_valid <- 0`: the frame on the TX port has left it (40_command_interface.md R180). -/
def portTaken (s : State) : State := { s with port := { s.port with valid := false } }

/-- `raise BusNotReady(1)`: the transmit side has rejected the frame (40_command_interface.md R180). In RX_FC this ends
a reassembly that is neither Complete nor Failed, and "Bytes at indices RX_LEN and above after a reassembly are
unspecified" (10_state.md R55, 60_exceptions.md R412): the bytes accumulated stay, as in `rasmFail` (log entry 2). In
the states that send no reassembly ends and RXBUF keeps its bytes (log entry 18). -/
def txRejected (s : State) : State :=
  raise (.busNotReady true) (if s.ctl = .rxFc then forgetRx s s.rasm.len.toNat else s)

/-- The frame on the TX port has been answered (40_command_interface.md R180). -/
def txAnswered (ok : Bool) (s : State) : Out :=
  if ok then
    match s.ctl with
    | .txSf => txSfAcked (portTaken s)
    | .txFf => .next (txFfAcked (portTaken s))
    | .txCf => txCfAcked (portTaken s)
    | .rxFc => .next (rxFcAcked (portTaken s))
    | .idle => .fault .txAckHasNoRule
    | .fcWait => .fault .txAckHasNoRule
    | .stWait => .fault .txAckHasNoRule
    | .respWait => .fault .txAckHasNoRule
    | .ackWait => .fault .txAckHasNoRule
  else .next (txRejected (portTaken s))

/-- `TxAck(ok)`, enabled only while `tx_valid` = 1 (40_command_interface.md R170, R180). -/
def txAckEvent (ok : Bool) (s : State) : Out :=
  if s.port.valid then settle (txAnswered ok s) else .refused .txAckNotEnabled

/-- Whether the timer runs in a control state (60_exceptions.md R420). -/
def timerRuns (c : Ctl) : Bool :=
  match c with
  | .fcWait | .stWait | .respWait | .rxFc | .ackWait => true
  | .idle | .txSf | .txFf | .txCf => false

/-- What a Tick of `dt` microseconds does to the timer (60_exceptions.md R420). -/
def advanceTimer (dt : Nat) (s : State) : State :=
  if timerRuns s.ctl then { s with timer := { s.timer with tmr := sat32 (s.timer.tmr.toNat + dt) } } else s

/-- `Tick(dt)`, dt >= 1 (60_exceptions.md R420). -/
def tickEvent (dt : Nat) (s : State) : Out :=
  if dt = 0 then .refused .tickNotPositive else settle (.next (advanceTimer dt s))

/-- `Reset` (70_reset_and_hazards.md R450): the block's state takes its reset values. The environment is no part of
the block, and the unwritten buffer bytes get new free values. -/
def resetEvent (s : State) : State :=
  { State.reset with
    env := s.env
    draws := { txbuf := s.draws.txbuf + 1, rxbuf := s.draws.rxbuf + 1 } }

/-- One input of the environment's schedule. -/
def handleInput (i : Input) (s : State) : Out :=
  match i with
  | .hostWrite addr width v => hostWrite addr width v s
  | .hostRead addr width => hostRead addr width s
  | .rx => rxEvent s
  | .txAck ok => txAckEvent ok s
  | .tick dt => tickEvent dt s
  | .reset => .next (resetEvent s)
  | .frameArrives f => .next { s with env := { s.env with rxFifo := s.env.rxFifo ++ [f] } }
  | .busReady level => .next { s with env := { s.env with busReady := level } }

/-- The schedule with an input put in front. -/
def schedule (i : Input) (s : State) : State := { s with env := { s.env with inputs := i :: s.env.inputs } }

/-- Take the next input off the schedule and handle it. With no input the environment does nothing, and neither does
the block ("The block changes state only in events", 40_command_interface.md R170). -/
def nextInput (s : State) : Out :=
  match s.env.inputs with
  | [] => .next s
  | i :: rest => handleInput i { s with env := { s.env with inputs := rest } }

/-! ### Placing one instruction as the next one to run (log entry 9) -/

/-- Put a frame at the head of the external FIFO and let the block take it. -/
def placeFrame (f : Frame) (s : State) : State :=
  schedule .rx { s with env := { s.env with rxFifo := f :: s.env.rxFifo } }

/-- Write a command word to CMD. -/
def placeCommand (v : Word32) (s : State) : State := schedule (.hostWrite 0 4 v) s

/-- The arguments and the command of the operation that sends a request payload. -/
def placeRequest (p : List Byte) (s : State) : State :=
  match decodeRequest p with
  | .ok (.reqReadDid did) =>
      placeCommand (commandWord opReadDid) { s with regs := { s.regs with arg0 := did.setWidth 32 } }
  | .ok (.reqWriteDid did data) =>
      placeCommand (commandWord opWriteDid)
        (storeTx { s with regs := { s.regs with arg0 := did.setWidth 32, arg2 := BitVec.ofNat 32 data.length } } 0 data)
  | .ok (.reqReadDtc _ _) => placeCommand (commandWord opReadDtc) s
  | .ok (.reqClearDtc _) => placeCommand (commandWord opClearDtc) s
  | _ => s

/-- The operation in flight and its window, open for at least one microsecond. -/
def openWindow (op : BitVec 8) (c : Ctl) (s : State) : State :=
  { s with
    op := op
    ctl := c
    rasm := { s.rasm with phase := .idle }
    timer := { s.timer with tmr := 0, lim := 1 } }

/-- The window of the operation a response payload answers, and the payload in a Single Frame. -/
def placeResponse (p : List Byte) (s : State) : State :=
  let f := frameOf s.regs.respId (pciByte 0 (BitVec.ofNat 4 p.length) :: p)
  match decodeResponse p with
  | .ok (.rspReadDid _) => placeFrame f (openWindow opReadDid .respWait s)
  | .ok (.rspWriteDid _) => placeFrame f (openWindow opWriteDid .ackWait s)
  | .ok (.rspReadDtc _) => placeFrame f (openWindow opReadDtc .respWait s)
  | .ok (.rspClearDtc _) => placeFrame f (openWindow opClearDtc .ackWait s)
  | .ok (.rspNegative _) => placeFrame f (openWindow opReadDid .respWait s)
  | _ => s

/-- Place an opcode-table word so that the very next step runs it. -/
def placeCode (c : Code) (s : State) : State :=
  match c with
  | .command v => placeCommand v s
  | .frame f => placeFrame f s
  | .request p => placeRequest p s
  | .response p => placeResponse p s

end Sys2Proof.Machine
end

