-- ==== Sys2Proof/Machine/Step.lean ====
section
/-! DEFINITION. One step: the next input of the environment's schedule, handled whole (40_command_interface.md R170). -/

namespace Sys2Proof.Machine

/-- One step of the machine. -/
def step (s : State) : Host.Outcome State Fault Refusal := nextInput s

/-- `s` with an opcode-table word placed where the next step runs it: a command word as a HostWrite to CMD, a frame at
the head of the RX FIFO with an Rx event, a request as the command that sends it, a response as a Single Frame in the
window that awaits it. Log entry 9. -/
def State.withFetchWord (s : State) (nbits w : Nat) : State := placeCode (tableCode nbits w) s

end Sys2Proof.Machine
end

