-- ==== Sys2Proof/Safety.lean ====
section
/-! DEFINITION. What counts as a consistent state and a safe run, in the terms the statements use. -/

namespace Sys2Proof.Machine

/-- The states in which a frame is presented on the TX port (10_state.md R61). -/
def presenting (c : Ctl) : Bool :=
  match c with
  | .txSf | .txFf | .txCf | .rxFc => true
  | .idle | .fcWait | .stWait | .respWait | .ackWait => false

/-- The states in which the Transmitter is sending. -/
def sending (c : Ctl) : Bool :=
  match c with
  | .txSf | .txFf | .fcWait | .txCf | .stWait => true
  | .idle | .respWait | .rxFc | .ackWait => false

/-- The opcodes of the commands that send. -/
def isSendOp (o : BitVec 8) : Bool :=
  o == opTpSend || o == opReadDid || o == opWriteDid || o == opReadDtc || o == opClearDtc

/-- The opcodes of the commands that reassemble a response. -/
def isReassembleOp (o : BitVec 8) : Bool := o == opTpRecv || o == opReadDid || o == opReadDtc

/-- The opcodes of the commands that wait for a Single-Frame acknowledgement. -/
def isAckOp (o : BitVec 8) : Bool := o == opWriteDid || o == opClearDtc

/-- What holds of the control state in every run: the state of the TX port, the operation in flight and the
reassembly state fit the control state. -/
structure ControlInv (s : State) : Prop where
  /-- "`tx_valid = 1` exactly when `ctl` is TX_SF, TX_FF, TX_CF or RX_FC" (10_state.md R61) -/
  port : s.port.valid = presenting s.ctl
  /-- only a sending command sends (43_transmitter.md R296) -/
  sendOp : sending s.ctl = true → isSendOp s.op = true
  /-- nothing has been received while the request is sent (40_command_interface.md R175) -/
  sendPhase : sending s.ctl = true → s.rasm.phase = .idle
  /-- a transfer that waits before its next Consecutive Frame has payload left (43_transmitter.md R292) -/
  sendLeft : s.ctl = .txFf ∨ s.ctl = .fcWait ∨ s.ctl = .stWait → s.tx.pos.toNat < s.tx.len.toNat
  /-- a Consecutive Frame never carries more than the payload has (43_transmitter.md R292) -/
  sendPos : s.ctl = .txCf → s.tx.pos.toNat ≤ s.tx.len.toNat
  /-- only a reassembling command has a response window (42_reassembly.md R250) -/
  respOp : s.ctl = .respWait ∨ s.ctl = .rxFc → isReassembleOp s.op = true
  /-- "`rasm` is never Complete or Failed while `ctl` is RESP_WAIT" (42_reassembly.md R244) -/
  respPhase : s.ctl = .respWait → s.rasm.phase = .idle ∨ s.rasm.phase = .accumulating
  /-- the receive-side Flow Control frame follows an accepted First Frame (42_reassembly.md R246) -/
  rxFcPhase : s.ctl = .rxFc → s.rasm.phase = .accumulating
  /-- a message being accumulated still lacks bytes (42_reassembly.md R248) -/
  lacks : s.ctl = .respWait ∨ s.ctl = .rxFc → s.rasm.phase = .accumulating →
    s.rasm.len.toNat < s.rasm.exp.toNat
  /-- only WRITE_DID and CLEAR_DTC wait for an acknowledgement (44_uds_session.md R321) -/
  ackOp : s.ctl = .ackWait → isAckOp s.op = true

/-- What holds of STATUS and the results in every run: a command in flight shows none of the last command's outcome, a
failure shows no result, and no error shows a code or a detail. -/
structure StatusInv (s : State) : Prop where
  /-- DONE and ERR are cleared at acceptance and written only at the end of a command (10_state.md R38) -/
  inFlight : s.ctl ≠ .idle → s.status.done = false ∧ s.status.err = false
  /-- "RES0..RES3 and RES_KIND read 0 from acceptance until the command finishes" (70_reset_and_hazards.md R461,
  10_state.md R32) -/
  noResult : s.ctl ≠ .idle → s.res = { kind := 0, r0 := 0, r1 := 0, r2 := 0, r3 := 0 }
  /-- the results "stay 0 after a failure" (70_reset_and_hazards.md R461), and a failure sets DONE with ERR
  (60_exceptions.md R410) -/
  failed : s.status.err = true → s.res = { kind := 0, r0 := 0, r1 := 0, r2 := 0, r3 := 0 } ∧ s.status.done = true
  /-- ERRCODE is "error code of the last failed command ..., 0 otherwise", ERR_DETAIL is cleared at acceptance and never
  written on success (10_state.md R36, R40) -/
  noError : s.status.err = false → s.status.errcode = 0 ∧ s.status.errDetail = 0

/-- The invariant of the machine: a consistent control state, STATUS and results that fit it, and the buffers listed in
canonical form. -/
structure Inv (s : State) : Prop where
  control : ControlInv s
  status : StatusInv s
  mem : Memory.wf s.mem = true

/-- An outcome that is no fault. -/
def notFault : Out → Bool
  | .next _ => true
  | .fault _ => false
  | .refused _ => true

/-! ### Words the statements use -/

/-- Every byte of the buffers reads as before. -/
def sameBytes (s t : State) : Prop := ∀ a, byteAt t a = byteAt s a

/-- Every byte of the buffers outside `[lo, hi)` reads as before. -/
def sameBytesOutside (lo hi : Nat) (s t : State) : Prop := ∀ a, a < lo ∨ hi ≤ a → byteAt t a = byteAt s a

/-- The command in flight has ended with a result (60_exceptions.md R411). -/
structure Succeeded (t : State) (kind : BitVec 8) (r0 r1 r2 r3 : Word32) : Prop where
  done : t.status.done = true
  err : t.status.err = false
  errcode : t.status.errcode = 0
  res : t.res = { kind := kind, r0 := r0, r1 := r1, r2 := r2, r3 := r3 }
  ctl : t.ctl = .idle
  port : t.port.valid = false
  tmr : t.timer.tmr = 0
  lim : t.timer.lim = 0

/-- The command in flight has ended with an error (60_exceptions.md R410). -/
structure Failed (t : State) (code : BitVec 8) (detail : Word32) : Prop where
  done : t.status.done = true
  err : t.status.err = true
  errcode : t.status.errcode = code
  errDetail : t.status.errDetail = detail
  ctl : t.ctl = .idle
  port : t.port.valid = false
  tmr : t.timer.tmr = 0
  lim : t.timer.lim = 0

/-- The frame of a command that ends in its accepting event and is no bus command (30_encoding.md R131): besides its
result, STATUS and what it is said to store, it writes `op` and stops the timer. -/
structure PureFrame (o : BitVec 8) (s t : State) : Prop where
  regs : t.regs = s.regs
  rxLen : t.rxLen = s.rxLen
  tx : t.tx = s.tx
  rasm : t.rasm = s.rasm
  respLim : t.timer.respLim = s.timer.respLim
  txFrame : t.port.frame = s.port.frame
  didCur : t.didCur = s.didCur
  env : t.env = s.env
  draws : t.draws = s.draws
  op : t.op = o
  cmdRejected : t.status.cmdRejected = false

/-- The session state as a bus command's start initialises it, and the response window it computes
(40_command_interface.md R175, 60_exceptions.md R422). What of `hdr_len`, `tx_len` and `tx_pos` the start rules write
anew stands in the statements. -/
structure SessionInitialised (s t : State) : Prop where
  rxLen : t.rxLen = 0
  rasm : t.rasm = { phase := .idle, exp := 0, len := 0, seq := 0, mf := false, why := 0 }
  tmr : t.timer.tmr = 0
  respLim : t.timer.respLim.toNat =
    min ((if s.regs.arg3.toNat % 256 ≠ 0 then s.regs.arg3.toNat % 256 else s.regs.defTimeout.toNat)
      * s.regs.tuUs.toNat) (2 ^ 32 - 1)
  txSeq : t.tx.seq = 1
  txCounts : t.tx.bs = 0 ∧ t.tx.bsCnt = 0 ∧ t.tx.stUs = 0 ∧ t.tx.nFrames = 0 ∧ t.tx.nFcWaits = 0

/-- What the start of a bus command leaves (40_command_interface.md R174, R175) besides what its start rule writes:
the registers, FOUT, the buffers and the environment as before, STATUS and the results cleared, the session state
initialised, the response window computed. -/
structure BusStarted (o : BitVec 8) (s t : State) : Prop extends SessionInitialised s t where
  regs : t.regs = s.regs
  fout : t.fout = s.fout
  env : t.env = s.env
  draws : t.draws = s.draws
  bytes : sameBytes s t
  op : t.op = o
  status : t.status = { done := false, err := false, cmdRejected := false, errcode := 0, errDetail := 0 }
  res : t.res = { kind := 0, r0 := 0, r1 := 0, r2 := 0, r3 := 0 }

/-- What an event of a command in flight leaves alone, whatever it does: the registers, FOUT, the environment, the
operation and its DID, the window computed at acceptance, CMD_REJECTED. -/
structure FlightFrame (s t : State) : Prop where
  regs : t.regs = s.regs
  fout : t.fout = s.fout
  env : t.env = s.env
  op : t.op = s.op
  didCur : t.didCur = s.didCur
  respLim : t.timer.respLim = s.timer.respLim
  cmdRejected : t.status.cmdRejected = s.status.cmdRejected

/-- A pure command (30_encoding.md R131) that ended with a result. -/
structure PureSuccess (o : BitVec 8) (s t : State) (kind : BitVec 8) (r0 r1 r2 r3 : Word32) : Prop where
  result : Succeeded t kind r0 r1 r2 r3
  frame : PureFrame o s t
  errDetail : t.status.errDetail = 0

/-- A pure command that ended with an error: no result, no frame, no byte of a buffer. -/
structure PureFailure (o : BitVec 8) (s t : State) (code : BitVec 8) (detail : Word32) : Prop where
  error : Failed t code detail
  frame : PureFrame o s t
  res : t.res = { kind := 0, r0 := 0, r1 := 0, r2 := 0, r3 := 0 }
  fout : t.fout = s.fout
  bytes : sameBytes s t

/-- Byte `k` of the data registers of a frame: byte 0 in bits [7:0] of the first, byte 4 in bits [7:0] of the second
(10_state.md R52). -/
def dataByte (r : FrameRegs) (k : Nat) : Nat :=
  (if k < 4 then r.d03.toNat / 256 ^ k else r.d47.toNat / 256 ^ (k - 4)) % 256

/-- FOUT holds a frame: its identifier, its length, its bytes and 0 beyond them (10_state.md R53). -/
structure FoutHolds (t : State) (f : Frame) : Prop where
  id : t.fout.id = f.id
  dlc : t.fout.dlc.toNat = f.data.length
  bytes : ∀ k, k < f.data.length → dataByte t.fout k = (f.data.getD k 0).toNat
  beyond : ∀ k, f.data.length ≤ k → k < 8 → dataByte t.fout k = 0

/-- The fields of the five ECU-info texts in a payload, start and width (45_payload_codecs.md R362). -/
def ecuTable (layout : BitVec 2) : List (Nat × Nat) :=
  if layout = 1 then [(0, 18), (18, 20), (38, 20), (58, 20), (78, 20)]
  else [(0, 18), (20, 20), (40, 20), (60, 20), (80, 20)]

/-- The five ECU-info texts of a payload (45_payload_codecs.md R362). -/
def ecuTexts (layout : BitVec 2) (payload : List Byte) : List (List Byte) :=
  (ecuTable layout).map fun c => asciiClean ((payload.drop c.1).take c.2)

/-- The length of the text in a slot. -/
def textLength (texts : List (List Byte)) (slot : Nat) : Nat := (texts.getD slot []).length

/-- RES0 of an ECU-info result: the lengths of texts 0 to 3, a byte each (45_payload_codecs.md R362). -/
def ecuLengths (texts : List (List Byte)) : Word32 :=
  BitVec.ofNat 32 (textLength texts 0 + textLength texts 1 * 2 ^ 8 + textLength texts 2 * 2 ^ 16
    + textLength texts 3 * 2 ^ 24)

/-- OUTBUF holds texts in slots of 32 bytes and 0 in every other byte. -/
def outbufHolds (t : State) (texts : List (List Byte)) : Prop :=
  ∀ k, k < 256 → byteAt t (outBase + k) = (texts.getD (k / 32) []).getD (k % 32) 0

/-- RES0 and RES1 of a sensor sample (45_payload_codecs.md R365): the distance of the first two bytes, and the quality
byte if the third is there and printable. -/
def sensorWords (payload : List Byte) : Word32 × Word32 :=
  let c := (payload.getD 2 0).toNat
  (BitVec.ofNat 32 ((payload.getD 0 0).toNat * 256 + (payload.getD 1 0).toNat),
    BitVec.ofNat 32 (if payload.length < 3 then 0 else if 0x20 ≤ c ∧ c ≤ 0x7E then c + 2 ^ 8 else 2 ^ 9))

/-- RES0 and RES2 of a DTC list in the data after the subfunction echo (45_payload_codecs.md R369). -/
def dtcWords (data : List Byte) : Word32 × Word32 :=
  (BitVec.ofNat 32 (if data.length ≤ 1 then 0 else (data.length - 1) / 4),
    BitVec.ofNat 32 (if data.length = 0 then 0 else (data.getD 0 0).toNat + 2 ^ 8))

/-- The DTC records of the list whose record 0 is at RXBUF[first]: record i is assembled from the four bytes at
RXBUF[first + 4i], the code from three of them, the most significant first, the status from the fourth
(45_payload_codecs.md R369, 30_encoding.md R138). -/
def recordsAt (t : State) (first : Nat) (records : List DtcRecord) : Prop :=
  ∀ i r, records[i]? = some r →
    r.code.toNat = (rxByte t (first + 4 * i)).toNat * 2 ^ 16 + (rxByte t (first + 4 * i + 1)).toNat * 2 ^ 8
      + (rxByte t (first + 4 * i + 2)).toNat ∧
    r.status = rxByte t (first + 4 * i + 3)

/-- `t` presents the first frame of the payload `p`: a Single Frame if it fits one (43_transmitter.md R282), else a
First Frame with six bytes (R283). -/
structure PresentsPayload (r : HostRegs) (t : State) (p : List Byte) : Prop where
  valid : t.port.valid = true
  len : t.tx.len.toNat = p.length
  payload : ∀ i, i < p.length → payloadByte t i = p.getD i 0
  short : p.length ≤ 7 → t.ctl = .txSf ∧ t.tx.pos.toNat = p.length ∧
    t.port.frame = mkFrame r (BitVec.ofNat 8 p.length :: p)
  long : 7 < p.length → t.ctl = .txFf ∧ t.tx.pos = 6 ∧
    t.port.frame =
      frameOf r.reqId (BitVec.ofNat 8 (0x10 + p.length / 256) :: BitVec.ofNat 8 (p.length % 256) :: p.take 6)

/-- What a request row leaves alone: everything but the Transmitter's header, length and position, the TX port, the
control state, `did_cur` and what it is said to store. -/
structure RequestFrame (s t : State) : Prop where
  regs : t.regs = s.regs
  status : t.status = s.status
  res : t.res = s.res
  rxLen : t.rxLen = s.rxLen
  fout : t.fout = s.fout
  op : t.op = s.op
  rasm : t.rasm = s.rasm
  timer : t.timer = s.timer
  env : t.env = s.env
  draws : t.draws = s.draws
  tx : t.tx = { s.tx with hdr := t.tx.hdr, hdrLen := t.tx.hdrLen, len := t.tx.len, pos := t.tx.pos }

/-- What an event of a transfer in flight leaves alone besides `FlightFrame`. -/
structure SendFrame (s t : State) : Prop where
  flight : FlightFrame s t
  rxLen : t.rxLen = s.rxLen
  rasm : t.rasm = s.rasm
  draws : t.draws = s.draws
  bytes : sameBytes s t

/-- `t` presents the next Consecutive Frame of the transfer in `s` (43_transmitter.md R292). -/
structure PresentsConsecutive (s t : State) : Prop where
  ctl : t.ctl = .txCf
  valid : t.port.valid = true
  pos : t.tx.pos.toNat = s.tx.pos.toNat + min 7 (s.tx.len.toNat - s.tx.pos.toNat)
  frame : t.port.frame = mkFrame s.regs (BitVec.ofNat 8 (0x20 + s.tx.seq.toNat) ::
    (List.range (min 7 (s.tx.len.toNat - s.tx.pos.toNat))).map fun j => payloadByte s (s.tx.pos.toNat + j))

/-- The transfer in `s` has ended after `frames` frames (43_transmitter.md R296): TP_SEND finishes, the Session's
commands open their window (44_uds_session.md R320, R321). -/
structure TransferEnds (s t : State) (frames : BitVec 16) : Prop where
  frame : SendFrame s t
  txFrame : t.port.frame = s.port.frame
  valid : t.port.valid = false
  sent : s.op = opTpSend →
    Succeeded t 9 (frames.setWidth 32) (s.tx.nFcWaits.setWidth 32) (s.tx.len.setWidth 32) 0 ∧
    t.status.errDetail = s.status.errDetail
  response : s.op = opReadDid ∨ s.op = opReadDtc →
    t.ctl = .respWait ∧ t.timer.tmr = 0 ∧ t.timer.lim = s.timer.respLim ∧ t.status = s.status ∧ t.res = s.res
  acknowledgement : s.op = opWriteDid ∨ s.op = opClearDtc →
    t.ctl = .ackWait ∧ t.timer.tmr = 0 ∧ t.timer.lim = s.timer.respLim ∧ t.status = s.status ∧ t.res = s.res

/-- An event in flight ends the command with an error and changes nothing else. -/
structure FlightFails (s t : State) (code : BitVec 8) (detail : Word32) : Prop where
  error : Failed t code detail
  frame : SendFrame s t
  res : t.res = s.res
  tx : t.tx = s.tx
  txFrame : t.port.frame = s.port.frame

/-- An event of a receive phase that ends in no result leaves alone, besides `FlightFrame`, the Transmitter and the
bytes outside RXBUF. -/
structure ReceiveFrame (s t : State) : Prop where
  flight : FlightFrame s t
  tx : t.tx = s.tx
  txbuf : ∀ a, a < rxBase → byteAt t a = byteAt s a

/-- OUTBUF reads as before. -/
def sameOutbuf (s t : State) : Prop := ∀ a, outBase ≤ a → byteAt t a = byteAt s a

/-- A failure has ended a reassembly: the bytes accumulated stay in RXBUF[0..rasm_len) (42_reassembly.md R252,
60_exceptions.md R412), the bytes from there on are unspecified (10_state.md R55). -/
structure ReassemblyEnds (s t : State) (code : BitVec 8) (detail : Word32) : Prop where
  error : Failed t code detail
  frame : ReceiveFrame s t
  outbuf : sameOutbuf s t
  res : t.res = s.res
  rxLen : t.rxLen = s.rxLen
  txFrame : t.port.frame = s.port.frame
  accumulated : ∀ k v, k < s.rasm.len.toNat → memGet s.mem (rxBase + k) = some v → rxByte t k = v

/-- A reassembly has failed (42_reassembly.md R252). -/
structure ReassemblyFails (s t : State) (code : BitVec 8) (detail : Word32) : Prop where
  ends : ReassemblyEnds s t code detail
  rasm : t.rasm = { s.rasm with phase := .failed, why := code }

/-- The wait goes on: neither STATUS nor the results nor the timer change. -/
structure WaitGoesOn (s t : State) : Prop where
  frame : ReceiveFrame s t
  outbuf : sameOutbuf s t
  status : t.status = s.status
  res : t.res = s.res
  rxLen : t.rxLen = s.rxLen
  timer : t.timer = s.timer
  draws : t.draws = s.draws

/-- The response `payload` has been taken: it is in RXBUF[0..RX_LEN) (42_reassembly.md R245, R250). -/
structure ResponseTaken (s t : State) (payload : List Byte) : Prop where
  frame : ReceiveFrame s t
  rxLen : t.rxLen.toNat = payload.length
  phase : t.rasm.phase = .complete
  len : t.rasm.len.toNat = payload.length
  bytes : ∀ k, k < payload.length → rxByte t k = payload.getD k 0

/-- A response in one piece leaves the rest of the reassembly state and the frame of the TX port alone. -/
structure WholeResponse (s t : State) : Prop where
  txFrame : t.port.frame = s.port.frame
  rasm : t.rasm = { s.rasm with phase := t.rasm.phase, len := t.rasm.len, mf := t.rasm.mf }

/-- A response ends the command with a result. -/
structure ResponseSuccess (s t : State) (payload : List Byte) (kind : BitVec 8) (r0 r1 r2 r3 : Word32) : Prop where
  taken : ResponseTaken s t payload
  result : Succeeded t kind r0 r1 r2 r3
  errDetail : t.status.errDetail = s.status.errDetail

/-- A response ends the command with an error and no result. -/
structure ResponseFailure (s t : State) (payload : List Byte) (code : BitVec 8) (detail : Word32) : Prop where
  taken : ResponseTaken s t payload
  error : Failed t code detail
  res : t.res = s.res
  outbuf : sameOutbuf s t

/-- The detail of a response whose SID is not the expected one (44_uds_session.md R324, 60_exceptions.md R405). -/
def wrongSidDetail (payload : List Byte) : Word32 :=
  BitVec.ofNat 32
    (if payload.getD 0 0 = 0x7F ∧ 3 ≤ payload.length then 0x7F + (payload.getD 2 0).toNat * 2 ^ 8 + 2 ^ 16
     else (payload.getD 0 0).toNat)

/-- The host's commands among the instructions. -/
def isCommand (i : Instr) : Bool :=
  match encode i with
  | .command _ => true
  | .frame _ => false
  | .request _ => false
  | .response _ => false

/-- The commands that use the bus (30_encoding.md R131). -/
def busCommands : List Instr := [.tpRecv, .tpSend, .readDid, .writeDid, .readDtc, .clearDtc]

/-- The transmit side takes a receive-side Flow Control frame at once. -/
def answerFlowControl (o : Out) : Out :=
  match o with
  | .next t => if t.ctl = .rxFc then txAnswered true t else .next t
  | .fault r => .fault r
  | .refused r => .refused r

/-- Received frames one after the other, a receive-side Flow Control frame taken as soon as it is presented; it stops
where one does not end in a next state. -/
def deliver : List Instr → State → Out
  | [], s => .next s
  | i :: is, s =>
    match answerFlowControl (exec i s) with
    | .next t => deliver is t
    | .fault r => .fault r
    | .refused r => .refused r

/-- `k` frames of a transfer taken by the transmit side one after the other. -/
def acknowledge : Nat → State → Out
  | 0, s => .next s
  | k + 1, s =>
    match txAnswered true s with
    | .next t => acknowledge k t
    | .fault r => .fault r
    | .refused r => .refused r

/-- The Consecutive Frames of the payload bytes that follow a First Frame, at most `n` of them: 7 bytes each, with
sequence numbers from `sn` (43_transmitter.md R292). -/
def consecutiveFrames (id : CanId) : Nat → BitVec 4 → List Byte → List Instr
  | 0, _, _ => []
  | _, _, [] => []
  | n + 1, sn, b :: bs => .pciCf id sn ((b :: bs).take 7) :: consecutiveFrames id n (sn + 1) ((b :: bs).drop 7)

/-- The frames of a payload longer than 7 bytes: a First Frame with 6 bytes, then Consecutive Frames (43_transmitter.md
R283, R292). -/
def segmented (id : CanId) (p : List Byte) : List Instr :=
  .pciFf id (BitVec.ofNat 12 p.length) (p.take 6) :: consecutiveFrames id p.length 1 (p.drop 6)

/-- The frames of a payload of at most 4095 bytes. -/
def framesOf (id : CanId) (p : List Byte) : List Instr :=
  if p.length ≤ 7 then [.pciSf id p []] else segmented id p

/-- The registers the host may write and the bits they hold (20_memory.md R90, 10_state.md R42 to R52). -/
def writableRegisters : List (Nat × Word32) :=
  [ (0x00C, 0x0000FF0F), (0x010, 0x7FF), (0x014, 0x7FF), (0x018, 0xFFFFFFFF), (0x01C, 0xFF), (0x020, 0xFF),
    (0x024, 0x1FFFF), (0x028, 0x1FFFF), (0x02C, 0x1FFFF), (0x030, 0x1FFFF), (0x034, 0x1FFFF),
    (0x040, 0xFFFFFFFF), (0x044, 0xFFFFFFFF), (0x048, 0xFFFFFFFF), (0x04C, 0xFFFFFFFF),
    (0x070, 0x7FF), (0x074, 0xF), (0x078, 0xFFFFFFFF), (0x07C, 0xFFFFFFFF) ]

/-- The bits a host write keeps at an offset: the named bits of a writable register, every bit in TXBUF and RXBUF, none
elsewhere (20_memory.md R82). -/
def writableBits (a : Nat) : Word32 :=
  if txBase ≤ a ∧ a < outBase then 0xFFFFFFFF
  else match writableRegisters.find? (fun row => row.1 == a) with
    | some row => row.2
    | none => 0

end Sys2Proof.Machine
end

