-- ==== Sys2Proof/Certificates/Slice0/Obligations.lean ====
section
/-! DEFINITION. The statements for the provers. -/

open Sys2Proof Sys2Proof.Machine

/-! ### Encodings -/

/-- Every well-formed instruction of the opcode table is what the decoder reads from its encoding, with every operand at
every value the encoding admits. -/
def Obligations.EncodedInstructionDecodesToItself : Prop :=
  ∀ i : Instr, i.wellFormed = true → decode (encode i) = .ok i

/-- Every frame the decoder accepts is the encoding of the well-formed instruction it gives: a frame has one meaning and
no bit of it is dropped. -/
def Obligations.DecodedFrameIsWellFormedAndEncodesBack : Prop :=
  ∀ (f : Frame) (i : Instr), decodeFrame f = .ok i → i.wellFormed = true ∧ encode i = .frame f

/-- 30_encoding.md R127: the frames that classify as malformed are exactly those with PCI type 4 to 15, no byte, an SF
with SF_DL 8 to 15 or too few bytes, an FF with fewer than 8 bytes, an FC with fewer than 3 bytes or FS 3 to 15. -/
def Obligations.MalformedFramesAreExactlyTheReservedEncodings : Prop :=
  ∀ f : Frame, classifyFrame f = .malformed ↔
    f.data = [] ∨ ∃ b0 rest, f.data = b0 :: rest ∧
      (4 ≤ b0.toNat / 16
        ∨ b0.toNat / 16 = 0 ∧ (8 ≤ b0.toNat % 16 ∨ f.data.length < 1 + b0.toNat % 16)
        ∨ b0.toNat / 16 = 1 ∧ f.data.length < 8
        ∨ b0.toNat / 16 = 3 ∧ (f.data.length < 3 ∨ 3 ≤ b0.toNat % 16))

/-- 41_frame_codec.md R209: the parameters a well-formed frame classifies with, read from its bytes, whatever its
identifier. -/
def Obligations.ClassifiedParametersAreTheFramesFields : Prop :=
  (∀ (id id' : CanId) (d : List Byte) (h : d.length ≤ 8), classifyFrame ⟨id, d, h⟩ = classifyFrame ⟨id', d, h⟩) ∧
  ∀ (f : Frame) (b0 : Byte) (rest : List Byte), f.data = b0 :: rest →
    (∀ n, classifyFrame f = .single n → b0.toNat / 16 = 0 ∧ n = b0.toNat % 16) ∧
    (∀ total, classifyFrame f = .first total →
      b0.toNat / 16 = 1 ∧ total.toNat = b0.toNat % 16 * 256 + (f.data.getD 1 0).toNat) ∧
    (∀ sn, classifyFrame f = .consecutive sn → b0.toNat / 16 = 2 ∧ sn.toNat = b0.toNat % 16) ∧
    (∀ fs bs st, classifyFrame f = .flowControl fs bs st →
      b0.toNat / 16 = 3 ∧ fs.code.toNat = b0.toNat % 16 ∧ bs = f.data.getD 1 0 ∧ st = f.data.getD 2 0)

/-- 30_encoding.md R126: milliseconds 0 to 127, 100 to 900 microseconds for 0xF1 to 0xF9, and for the invalid codes the
spec's 127000. -/
def Obligations.SeparationTimeDecodes : Prop :=
  ∀ v : Byte,
    (v.toNat ≤ 0x7F → (stDecode v).1 = true ∧ (stDecode v).2.toNat = v.toNat * 1000) ∧
    (0xF1 ≤ v.toNat ∧ v.toNat ≤ 0xF9 → (stDecode v).1 = true ∧ (stDecode v).2.toNat = (v.toNat - 0xF0) * 100) ∧
    (0x80 ≤ v.toNat ∧ v.toNat ≤ 0xF0 ∨ 0xFA ≤ v.toNat → (stDecode v).1 = false ∧ (stDecode v).2.toNat = 127000)

/-- A few words written out from the encodings of 30_encoding.md R121 to R124, R130, R135 and R136 decode to the
instructions they stand for. -/
def Obligations.WrittenOutWordsDecode : Prop :=
  decode (.command 0x00000001) = .ok .encSf ∧ decode (.command 0x12345620) = .ok .readDid ∧
  decode (.command 0x00000010) = .ok .tpRecv ∧ decode (.command 0x00000035) = .ok .lutStatus ∧
  decode (.frame (frameOf 0x7E8 [0x05, 0x62, 0x01, 0xA4, 0x01, 0x90]))
    = .ok (.pciSf 0x7E8 [0x62, 0x01, 0xA4, 0x01, 0x90] []) ∧
  decode (.frame (frameOf 0x7E8 [0x10, 0x64, 0x62, 0x01, 0x00, 0x41, 0x42, 0x43]))
    = .ok (.pciFf 0x7E8 100 [0x62, 0x01, 0x00, 0x41, 0x42, 0x43]) ∧
  decode (.frame (frameOf 0x7E8 [0x21, 0xAA])) = .ok (.pciCf 0x7E8 1 [0xAA]) ∧
  decode (.frame (frameOf 0x7E8 [0x30, 0x03, 0x05])) = .ok (.pciFc 0x7E8 .continueToSend 3 5 []) ∧
  decode (.request [0x22, 0x01, 0xA4]) = .ok (.reqReadDid 0x01A4) ∧
  decode (.request [0x14, 0xFF]) = .ok (.reqClearDtc 0xFF) ∧
  decode (.response [0x6E, 0x01, 0x23]) = .ok (.rspWriteDid [0x01, 0x23]) ∧
  decode (.response [0x7F, 0x22, 0x31]) = .ok (.rspNegative [0x22, 0x31])

/-! ### Steps -/

/-- A step runs the decoded instruction. The next input is taken off the schedule. A write to CMD runs the command its
word decodes to; an Rx event, in a state with `rx_ready` = 1, takes the frame at the head of the external FIFO and runs
the instruction it decodes to. Around `exec` the step adds the timeout evaluation (`settle`, 60_exceptions.md R421). The
other words and frames reach `commandWritten` and `frameReceived` the same way, a HostRead is handled with no timeout
evaluation (40_command_interface.md R170), an access outside the port's contract is refused (20_memory.md R83). That
`env.hostRdata` takes the word a HostRead returns is the model's choice (log entry 6). The remaining clauses are the
model's own (log entries 3, 4, 5, 11): an Rx event that is not enabled, the inputs that are no event of the block, an
empty schedule, a Tick of 0. `rx_ready` is 1 in the four states of 10_state.md R62. An aligned host write to an offset
other than CMD is the matter of `HostWriteReadsBackInTheNamedBits`. -/
def Obligations.StepRunsTheDecodedInstruction : Prop :=
  ∀ s : State,
    let after : List Input → State := fun rest => { s with env := { s.env with inputs := rest } }
    let taking : List Input → List Frame → State := fun rest fs =>
      { s with env := { s.env with inputs := rest, rxFifo := fs } }
    let carried : BitVec 16 → Nat → Prop := fun addr width => width = 4 ∧ addr.toNat % 4 = 0 ∧ addr.toNat < 0x4000
    (∀ v rest, s.env.inputs = .hostWrite 0 4 v :: rest →
      step s = settle (commandWritten v (after rest)) ∧
      ∀ i, decode (.command v) = .ok i → i.wellFormed = true → step s = settle (exec i (after rest))) ∧
    (∀ rest f fs, s.env.inputs = .rx :: rest → s.env.rxFifo = f :: fs → rxReady s.ctl = true →
      step s = settle (frameReceived f (taking rest fs)) ∧
      ∀ i, decode (.frame f) = .ok i → i.wellFormed = true → step s = settle (exec i (taking rest fs))) ∧
    (∀ rest, s.env.inputs = .rx :: rest → s.env.rxFifo = [] ∨ rxReady s.ctl = false → step s = .next (after rest)) ∧
    (∀ addr width rest, s.env.inputs = .hostRead addr width :: rest →
      step s = hostRead addr width (after rest) ∧
      (carried addr width → step s =
        .next { after rest with env := { s.env with inputs := rest, hostRdata := memRead s addr.toNat } }) ∧
      (¬ carried addr width → step s = .refused .hostAccessOutsideContract)) ∧
    (∀ addr width v rest, s.env.inputs = .hostWrite addr width v :: rest → ¬ carried addr width →
      step s = .refused .hostAccessOutsideContract) ∧
    (∀ rest, s.env.inputs = .tick 0 :: rest → step s = .refused .tickNotPositive) ∧
    (∀ f rest, s.env.inputs = .frameArrives f :: rest → step s = .next (taking rest (s.env.rxFifo ++ [f]))) ∧
    (∀ level rest, s.env.inputs = .busReady level :: rest →
      step s = .next { s with env := { s.env with inputs := rest, busReady := level } }) ∧
    (s.env.inputs = [] → step s = .next s) ∧
    (rxReady s.ctl = true ↔ s.ctl = .idle ∨ s.ctl = .fcWait ∨ s.ctl = .respWait ∨ s.ctl = .ackWait) ∧
    settle (.next s) = .next (timeoutEval s)

/-- The request rows reach a run through the commands that send them: after the acceptance and the bus start
(40_command_interface.md R174, R175), READ_DID, READ_DTC and CLEAR_DTC run their request row (44_uds_session.md R322,
R330, R334), and so does WRITE_DID up to how the model lists the data bytes of TXBUF (R326). That a row stands for the
request phase alone is the model's choice (log entry 9). -/
def Obligations.SessionCommandsRunTheirRequestRows : Prop :=
  ∀ s : State, s.ctl = .idle → s.env.busReady = true →
    exec .readDid s = exec (.reqReadDid (s.regs.arg0.extractLsb' 0 16)) (busInit (accept opReadDid s)) ∧
    exec .readDtc s = exec (.reqReadDtc 0x02 0xFF) (busInit (accept opReadDtc s)) ∧
    exec .clearDtc s = exec (.reqClearDtc 0xFF) (busInit (accept opClearDtc s)) ∧
    (s.regs.arg2.toNat % 65536 ≤ 4092 →
      ∃ t u, exec .writeDid s = .next t ∧
        exec (.reqWriteDid (s.regs.arg0.extractLsb' 0 16) (txBytes s 0 (s.regs.arg2.toNat % 65536)))
          (busInit (accept opWriteDid s)) = .next u ∧
        u = { t with mem := u.mem } ∧ sameBytes t u)

/-- The response rows reach a run through Single Frames: in an open window a Single Frame whose payload is a response
runs that response's row (42_reassembly.md R245, R250; 44_uds_session.md R336). That a row stands for the completion phase
is the model's choice (log entry 9). -/
def Obligations.SingleFramesRunTheirResponseRows : Prop :=
  ∀ (s : State) (i : Instr) (payload padding : List Byte), decodeResponse payload = .ok i →
    (s.ctl = .respWait → s.rasm.phase = .idle →
      exec (.pciSf s.regs.respId payload padding) s = exec i { s with rasm := { s.rasm with mf := false } }) ∧
    (s.ctl = .ackWait → exec (.pciSf s.regs.respId payload padding) s = exec i s)

/-! ### Acceptance -/

/-- 40_command_interface.md R173: a write to CMD while BUSY = 1, whatever the word, changes nothing but
STATUS.CMD_REJECTED. -/
def Obligations.CommandWhileBusyOnlySetsCmdRejected : Prop :=
  ∀ (s : State) (v : Word32), s.ctl ≠ .idle →
    commandWritten v s = .next { s with status := { s.status with cmdRejected := true } }

/-- 30_encoding.md R132: the opcodes outside the map are exactly 0x00, 0x06 to 0x0F, 0x12 to 0x1F, 0x24 to 0x2F and 0x36
to 0xFF, and a command word carrying one is accepted and finishes at once with InvalidCommand. -/
def Obligations.ReservedOpcodeFinishesWithInvalidCommand : Prop :=
  ∀ v : Word32,
    (decodes (.command v) = false ↔
      (v.toNat % 256 = 0x00 ∨ 0x06 ≤ v.toNat % 256 ∧ v.toNat % 256 ≤ 0x0F ∨
        0x12 ≤ v.toNat % 256 ∧ v.toNat % 256 ≤ 0x1F ∨ 0x24 ≤ v.toNat % 256 ∧ v.toNat % 256 ≤ 0x2F ∨
        0x36 ≤ v.toNat % 256)) ∧
    ∀ s : State, s.ctl = .idle → decodes (.command v) = false →
      ∃ t, commandWritten v s = .next t ∧ Failed t 0x12 (BitVec.ofNat 32 (v.toNat % 256)) ∧
        t.res = { kind := 0, r0 := 0, r1 := 0, r2 := 0, r3 := 0 } ∧
        PureFrame (v.extractLsb' 0 8) s t ∧ t.fout = s.fout ∧ sameBytes s t

/-- 30_encoding.md R134: a command accepted in IDLE ends in InvalidArgument, with detail 0, exactly when its row's range
check fails; ENC_SF and the commands without a row never do. RX_LEN is kept, as the checks of 40_command_interface.md R174
come before the bus start (log entry 15).
That a failure that ends no reassembly leaves RXBUF as it was is the model's choice (log entry 18). -/
def Obligations.InvalidArgumentExactlyWhenARangeCheckFails : Prop :=
  ∀ (s : State) (i : Instr), s.ctl = .idle → isCommand i = true →
    let arg0 := s.regs.arg0.toNat; let off := s.regs.arg1.toNat % 65536; let len := s.regs.arg2.toNat % 65536
    let st := s.regs.arg2.toNat % 256
    let outOfRange : Prop :=
      i = .encFf ∧ 4095 < arg0 % 65536 ∨
      i = .encCf ∧ (15 < arg0 % 256 ∨ 7 < len) ∨
      i = .encFc ∧ (2 < arg0 % 256 ∨ 0x80 ≤ st ∧ st ≤ 0xF0 ∨ 0xFA ≤ st) ∨
      i = .classify ∧ 8 < s.regs.fin.dlc.toNat ∨
      i = .tpSend ∧ 4095 < len ∨
      i = .writeDid ∧ 4092 < len ∨
      (i = .decEcuInfo ∨ i = .decSensor ∨ i = .decDtcList) ∧ 4096 < off + len
    ∃ t, exec i s = .next t ∧
      (outOfRange → Failed t 0x11 0 ∧ t.res = { kind := 0, r0 := 0, r1 := 0, r2 := 0, r3 := 0 } ∧
        t.regs = s.regs ∧ t.fout = s.fout ∧ t.rxLen = s.rxLen ∧ sameBytes s t) ∧
      (¬ outOfRange → t.status.errcode ≠ 0x11)

/-- 40_command_interface.md R177: a bus command accepted with `bus_ready` = 0 and arguments in range fails at once with
BusNotReady, detail 0; nothing is presented and no buffer changes. That the session state is initialised all the same
(R175 before R177) is the model's reading of the two rules' order, DEDUCED (log entry 15).
That a failure that ends no reassembly leaves RXBUF as it was is the model's choice (log entry 18). -/
def Obligations.BusCommandFailsWhenTheBusIsNotReady : Prop :=
  ∀ (s : State) (i : Instr), s.ctl = .idle → s.env.busReady = false → i ∈ busCommands →
    (i = .tpSend → s.regs.arg2.toNat % 65536 ≤ 4095) → (i = .writeDid → s.regs.arg2.toNat % 65536 ≤ 4092) →
      ∃ t, exec i s = .next t ∧ Failed t 0x01 0 ∧ t.res = { kind := 0, r0 := 0, r1 := 0, r2 := 0, r3 := 0 } ∧
        SessionInitialised s t ∧ t.tx.hdrLen = 0 ∧ t.tx.len = 0 ∧ t.tx.pos = 0 ∧
        t.regs = s.regs ∧ t.fout = s.fout ∧ t.env = s.env ∧ sameBytes s t

/-- 70_reset_and_hazards.md R453: a bus command accepted in IDLE with its arguments in range depends on nothing an earlier
command left in STATUS, the results, RX_LEN, `op`, the reassembly state, the timers or the Transmitter. What agrees by
hypothesis is the rest of the state: the host's registers, the buffers, FOUT, the environment, the frame last presented,
the header bytes (log entry 13) and `did_cur`, which a command that uses neither keeps. -/
def Obligations.BusCommandDependsOnNoEarlierSession : Prop :=
  ∀ (s t : State) (i : Instr), i ∈ busCommands → s.ctl = .idle → t.ctl = .idle →
    (i = .tpSend → s.regs.arg2.toNat % 65536 ≤ 4095) → (i = .writeDid → s.regs.arg2.toNat % 65536 ≤ 4092) →
    t.regs = s.regs → t.mem = s.mem → t.draws = s.draws → t.fout = s.fout → t.env = s.env → t.port = s.port →
    t.didCur = s.didCur → t.tx.hdr = s.tx.hdr →
      exec i t = exec i s

/-! ### The end of a command -/

/-- 60_exceptions.md R410: `raise` records the error, sets DONE and returns the block to IDLE; every other piece of state
keeps its value.
That `raise` itself leaves RXBUF as it was is the model's choice (log entry 18). -/
def Obligations.RaiseRecordsTheErrorAndReturnsToIdle : Prop :=
  ∀ (e : CmdError) (s : State),
    Failed (raise e s) (errorCode e) (errorDetail e) ∧ FlightFrame s (raise e s) ∧
    (raise e s).res = s.res ∧ (raise e s).rxLen = s.rxLen ∧ (raise e s).tx = s.tx ∧ (raise e s).rasm = s.rasm ∧
    (raise e s).port.frame = s.port.frame ∧ (raise e s).draws = s.draws ∧ sameBytes s (raise e s)

/-- 60_exceptions.md R411: `finish` writes RES_KIND and RES0 to RES3, clears ERR and ERRCODE, sets DONE and returns the
block to IDLE; every other piece of state keeps its value. -/
def Obligations.FinishWritesTheResultsAndReturnsToIdle : Prop :=
  ∀ (k : ResKind) (r0 r1 r2 r3 : Word32) (s : State),
    let t := finish k r0 r1 r2 r3 s
    Succeeded t (resKindCode k) r0 r1 r2 r3 ∧ FlightFrame s t ∧ t.status.errDetail = s.status.errDetail ∧
    t.rxLen = s.rxLen ∧ t.tx = s.tx ∧ t.rasm = s.rasm ∧ t.port.frame = s.port.frame ∧ t.draws = s.draws ∧
    sameBytes s t

/-- 60_exceptions.md R402: the ERR_DETAIL word of every error, as a number: each named field at its place, every other bit
0. -/
def Obligations.ErrorDetailsHaveTheirLayout : Prop :=
  (∀ b, (errorDetail (.busNotReady b)).toNat = b.toNat) ∧
  (∀ n, n < 2 ^ 17 → (errorDetail (.payloadTooLargeForSingleFrame n)).toNat = n) ∧
  (∀ b dlc, dlc ≤ 8 → (errorDetail (.malformedPci b dlc)).toNat = b.toNat + dlc * 2 ^ 8) ∧
  (∀ expected received type, (errorDetail (.sequenceError expected received type)).toNat =
    expected.toNat + received.toNat * 2 ^ 4 + type.toNat * 2 ^ 8) ∧
  (∀ len mf, (errorDetail (.timeout len mf)).toNat = len.toNat + mf.toNat * 2 ^ 12) ∧
  (∀ pos, (errorDetail (.flowControlTimeout pos)).toNat = pos.toNat) ∧
  (errorDetail (.flowControlRejected .wait) = 1 ∧ errorDetail (.flowControlRejected .overflow) = 2) ∧
  (∀ sid nrc valid empty, (errorDetail (.unexpectedServiceId sid nrc valid empty)).toNat =
    sid.toNat + nrc.toNat * 2 ^ 8 + valid.toNat * 2 ^ 16 + empty.toNat * 2 ^ 17) ∧
  (∀ n, n < 2 ^ 16 → (errorDetail (.invalidSensorPayload n)).toNat = n ∧
    (errorDetail (.ecuInfoPayloadTooShort n)).toNat = n ∧ (errorDetail (.dtcPayloadMalformed n)).toNat = n) ∧
  (∀ b, (errorDetail (.writeAckNotObserved b)).toNat = b.toNat) ∧
  (∀ echo short, (errorDetail (.didMismatch echo short)).toNat = echo.toNat + short.toNat * 2 ^ 16) ∧
  errorDetail .invalidArgument = 0 ∧
  (∀ o, (errorDetail (.invalidCommand o)).toNat = o.toNat) ∧
  (∀ layout, (errorDetail (.ecuLayoutNotSelected layout)).toNat = layout.toNat)

/-- 10_state.md R36, R33: the STATUS word as a number, every field at its place and the reserved bits 0; the nine codes of
the control state and the four of the reassembly state. -/
def Obligations.StatusWordHasItsFields : Prop :=
  ∀ s : State, (statusWord s).toNat =
    (if s.ctl = .idle then 0 else 1) + s.status.done.toNat * 2 + s.status.err.toNat * 4
      + s.status.cmdRejected.toNat * 8 + s.status.errcode.toNat * 2 ^ 8 + (ctlCode s.ctl).toNat * 2 ^ 16
      + (rasmCode s.rasm.phase).toNat * 2 ^ 20 ∧
    [Ctl.idle, .txSf, .txFf, .fcWait, .txCf, .stWait, .respWait, .rxFc, .ackWait].map (fun c => (ctlCode c).toNat)
      = [0, 1, 2, 3, 4, 5, 6, 7, 8] ∧
    [RasmPhase.idle, .accumulating, .complete, .failed].map (fun p => (rasmCode p).toNat) = [0, 1, 2, 3]

/-! ### The Frame Codec (41_frame_codec.md) -/

/-- R200: ENC_SF builds the Single Frame of SID, DID and data when its length n is at most 7, and fails with
PayloadTooLargeForSingleFrame(n) otherwise, with no wrap of n. FOUT holds the frame as 10_state.md R53 packs it. -/
def Obligations.EncSfBuildsASingleFrame : Prop :=
  ∀ s : State, s.ctl = .idle →
    let len := s.regs.arg2.toNat % 65536
    let did : List Byte :=
      if s.regs.arg0.getLsbD 8 then [s.regs.arg1.extractLsb' 8 8, s.regs.arg1.extractLsb' 0 8] else []
    let n := 1 + did.length + len
    ∃ t, exec .encSf s = .next t ∧
      (n ≤ 7 → PureSuccess 0x01 s t 7 (BitVec.ofNat 32 n) 0 0 0 ∧ sameBytes s t ∧
        FoutHolds t (mkFrame s.regs
          (BitVec.ofNat 8 n :: s.regs.arg0.extractLsb' 0 8 :: (did ++ txBytes s 0 len)))) ∧
      (7 < n → PureFailure 0x01 s t 0x02 (BitVec.ofNat 32 n))

/-- R202, R203: ENC_FF builds the First Frame of TOTAL_LEN and TXBUF[0..6), always 8 bytes; a TOTAL_LEN above 4095 is
an InvalidArgument. FOUT holds the frame as 10_state.md R53 packs it. -/
def Obligations.EncFfBuildsAFirstFrame : Prop :=
  ∀ s : State, s.ctl = .idle →
    let total := s.regs.arg0.toNat % 65536
    ∃ t, exec .encFf s = .next t ∧
      (total ≤ 4095 → PureSuccess 0x02 s t 7 6 0 0 0 ∧ sameBytes s t ∧
        FoutHolds t (frameOf s.regs.reqId
          (BitVec.ofNat 8 (0x10 + total / 256) :: BitVec.ofNat 8 (total % 256) :: txBytes s 0 6))) ∧
      (4095 < total → PureFailure 0x02 s t 0x11 0)

/-- R204, R205: ENC_CF builds the Consecutive Frame of SEQ and TXBUF[0..LEN); SEQ above 15 or LEN above 7 is an
InvalidArgument. FOUT holds the frame as 10_state.md R53 packs it. -/
def Obligations.EncCfBuildsAConsecutiveFrame : Prop :=
  ∀ s : State, s.ctl = .idle →
    let seq := s.regs.arg0.toNat % 256
    let len := s.regs.arg2.toNat % 65536
    ∃ t, exec .encCf s = .next t ∧
      (seq ≤ 15 ∧ len ≤ 7 → PureSuccess 0x03 s t 7 (BitVec.ofNat 32 len) 0 0 0 ∧ sameBytes s t ∧
        FoutHolds t (mkFrame s.regs (BitVec.ofNat 8 (0x20 + seq) :: txBytes s 0 len))) ∧
      (15 < seq ∨ 7 < len → PureFailure 0x03 s t 0x11 0)

/-- R206, R207: ENC_FC builds the Flow Control frame of FS, BS and ST; FS above 2 or an invalid ST is an
InvalidArgument. FOUT holds the frame as 10_state.md R53 packs it. -/
def Obligations.EncFcBuildsAFlowControlFrame : Prop :=
  ∀ s : State, s.ctl = .idle →
    let fs := s.regs.arg0.toNat % 256
    let st := s.regs.arg2.toNat % 256
    let valid : Prop := fs ≤ 2 ∧ (st ≤ 0x7F ∨ 0xF1 ≤ st ∧ st ≤ 0xF9)
    ∃ t, exec .encFc s = .next t ∧
      (valid → PureSuccess 0x04 s t 7 3 0 0 0 ∧ sameBytes s t ∧
        FoutHolds t (mkFrame s.regs
          [BitVec.ofNat 8 (0x30 + fs), s.regs.arg1.extractLsb' 0 8, s.regs.arg2.extractLsb' 0 8])) ∧
      (¬ valid → PureFailure 0x04 s t 0x11 0)

/-- R208: CLASSIFY reports the type and the parameters of the frame in FIN (10_state.md R52), or MalformedPci; a FIN_DLC
above 8 is an InvalidArgument. -/
def Obligations.ClassifyReportsTheFrame : Prop :=
  ∀ s : State, s.ctl = .idle →
    let f := frameFromRegs s.regs.fin
    let dlc := s.regs.fin.dlc.toNat
    ∃ t, exec .classify s = .next t ∧
      (8 < dlc → PureFailure 0x05 s t 0x11 0) ∧
      (dlc ≤ 8 →
        f.dlc = dlc ∧
        (∀ k, k < dlc → (f.byte k).toNat =
          dataByte s.regs.fin k) ∧
        match classifyFrame f with
        | .malformed => PureFailure 0x05 s t 0x03 (BitVec.ofNat 32 ((f.byte 0).toNat + dlc * 2 ^ 8))
        | .single n => PureSuccess 0x05 s t 10 0 (BitVec.ofNat 32 n) 0 0 ∧ t.fout = s.fout ∧ sameBytes s t
        | .first total =>
            PureSuccess 0x05 s t 10 1 (total.setWidth 32) 0 0 ∧ t.fout = s.fout ∧ sameBytes s t
        | .consecutive sn => PureSuccess 0x05 s t 10 2 (sn.setWidth 32) 0 0 ∧ t.fout = s.fout ∧ sameBytes s t
        | .flowControl fs bs st =>
            PureSuccess 0x05 s t 10 3 (BitVec.ofNat 32 (fs.code.toNat + bs.toNat * 2 ^ 8 + st.toNat * 2 ^ 16))
              (stDecode st).2 (if (stDecode st).1 then 1 else 0) ∧ t.fout = s.fout ∧ sameBytes s t)

/-- 30_encoding.md R128: a built frame carries REQ_ID and exactly its meaningful bytes, or, with PAD_EN = 1, 8 bytes of
which the rest are PAD_BYTE; without padding the four types have 1 + SF_DL, 8, 1 + n and 3 bytes. -/
def Obligations.BuiltFramesHaveTheirLength : Prop :=
  ∀ r : HostRegs,
    (∀ bytes : List Byte, 1 ≤ bytes.length → bytes.length ≤ 8 →
      let f := mkFrame r bytes
      f.id = r.reqId ∧
      (r.cfg.padEn = false → f.data = bytes) ∧
      (r.cfg.padEn = true → f.dlc = 8 ∧ f.data.take bytes.length = bytes ∧
        ∀ k, bytes.length ≤ k → k < 8 → f.byte k = r.cfg.padByte)) ∧
    (r.cfg.padEn = false →
      (∀ p : List Byte, p.length ≤ 7 → (sfFrame r p).dlc = 1 + p.length) ∧
      (∀ total six, six.length = 6 → (ffFrame r total six).dlc = 8) ∧
      (∀ sn d, d.length ≤ 7 → (cfFrame r sn d).dlc = 1 + d.length) ∧
      (∀ fs bs st, (fcFrame r fs bs st).dlc = 3))

/-- The four frame builders (R201, R203, R205, R207) are undone by the classifier (R209), up to the padding. -/
def Obligations.BuiltFramesDecodeToWhatTheyCarry : Prop :=
  ∀ r : HostRegs,
    let pad : Nat → List Byte := fun n => if r.cfg.padEn then List.replicate n r.cfg.padByte else []
    (∀ p : List Byte, p.length ≤ 7 → decodeFrame (sfFrame r p) = .ok (.pciSf r.reqId p (pad (7 - p.length)))) ∧
    (∀ total six, six.length = 6 → decodeFrame (ffFrame r total six) = .ok (.pciFf r.reqId total six)) ∧
    (∀ sn d, d.length ≤ 7 → decodeFrame (cfFrame r sn d) = .ok (.pciCf r.reqId sn (d ++ pad (7 - d.length)))) ∧
    (∀ fs bs st, decodeFrame (fcFrame r fs.code bs st) = .ok (.pciFc r.reqId fs bs st (pad 5)))

/-! ### The payload codecs (45_payload_codecs.md) -/

/-- R364, R365: DEC_SENSOR decodes RXBUF[OFF..OFF+LEN); fewer than 2 bytes are an InvalidSensorPayload. -/
def Obligations.DecSensorDecodesTheSample : Prop :=
  ∀ s : State, s.ctl = .idle →
    let off := s.regs.arg1.toNat % 65536
    let len := s.regs.arg2.toNat % 65536
    ∃ t, exec .decSensor s = .next t ∧
      (4096 < off + len → PureFailure 0x31 s t 0x11 0) ∧
      (off + len ≤ 4096 → len < 2 → PureFailure 0x31 s t 0x09 (BitVec.ofNat 32 len)) ∧
      (off + len ≤ 4096 → 2 ≤ len →
        let w := sensorWords (rxBytes s off len)
        PureSuccess 0x31 s t 2 w.1 w.2 0 0 ∧ t.fout = s.fout ∧ sameBytes s t)

/-- R361, R362: DEC_ECU_INFO decodes the five texts of the selected layout into OUTBUF; no layout, a reserved one or a
short payload fails and writes nothing. -/
def Obligations.DecEcuInfoDecodesTheTexts : Prop :=
  ∀ s : State, s.ctl = .idle →
    let off := s.regs.arg1.toNat % 65536
    let len := s.regs.arg2.toNat % 65536
    let layout := s.regs.cfg.ecuLayout
    let size := if layout = 1 then 98 else 100
    let texts := ecuTexts layout (rxBytes s off len)
    ∃ t, exec .decEcuInfo s = .next t ∧
      (4096 < off + len → PureFailure 0x30 s t 0x11 0) ∧
      (off + len ≤ 4096 → layout = 0 ∨ layout = 3 → PureFailure 0x30 s t 0x13 (layout.setWidth 32)) ∧
      (off + len ≤ 4096 → layout = 1 ∨ layout = 2 → len < size →
        PureFailure 0x30 s t 0x0A (BitVec.ofNat 32 len)) ∧
      (off + len ≤ 4096 → layout = 1 ∨ layout = 2 → size ≤ len →
        PureSuccess 0x30 s t 1 (ecuLengths texts) (BitVec.ofNat 32 (textLength texts 4)) (layout.setWidth 32) 0 ∧
        t.fout = s.fout ∧ outbufHolds t texts ∧ sameBytesOutside outBase outEnd s t)

/-- R363: `ascii_clean` keeps, in order, the bytes up to 0x7F among those before the first NUL. -/
def Obligations.AsciiCleanTruncatesThenDrops : Prop :=
  ∀ u rest : List Byte, (∀ b ∈ u, b ≠ 0) → (rest = [] ∨ ∃ tail, rest = 0 :: tail) →
    asciiClean (u ++ rest) = u.filter (fun b => decide (b.toNat ≤ 0x7F))

/-- R366: ENC_THRESHOLDS writes the four little-endian fields to TXBUF[0..8) and nothing else. -/
def Obligations.EncThresholdsWritesFourLittleEndianFields : Prop :=
  ∀ s : State, s.ctl = .idle →
    let a0 := s.regs.arg0.toNat
    let a1 := s.regs.arg1.toNat
    ∃ t, exec .encThresholds s = .next t ∧ PureSuccess 0x32 s t 8 8 0 0 0 ∧ t.fout = s.fout ∧
      sameBytesOutside txBase (txBase + 8) s t ∧
      (txByte t 0).toNat + (txByte t 1).toNat * 2 ^ 8 = a0 % 2 ^ 16 ∧
      (txByte t 2).toNat + (txByte t 3).toNat * 2 ^ 8 = a0 / 2 ^ 16 ∧
      (txByte t 4).toNat + (txByte t 5).toNat * 2 ^ 8 = a1 % 2 ^ 16 ∧
      (txByte t 6).toNat + (txByte t 7).toNat * 2 ^ 8 = a1 / 2 ^ 16

/-- R368, R369: DEC_DTC_LIST reports the record count, the index of record 0 and the availability mask of
RXBUF[OFF..OFF+LEN); the records counted are the groups of 4 bytes from that index, each with its code and its status
(30_encoding.md R138). The byte order of a record's code is the spec's own inference ("derived: from the example of
§8"). -/
def Obligations.DecDtcListCountsTheRecords : Prop :=
  ∀ s : State, s.ctl = .idle →
    let off := s.regs.arg1.toNat % 65536
    let len := s.regs.arg2.toNat % 65536
    ∃ t, exec .decDtcList s = .next t ∧
      (4096 < off + len → PureFailure 0x33 s t 0x11 0) ∧
      (off + len ≤ 4096 →
        let d := rxBytes s off len
        let w := dtcWords d
        PureSuccess 0x33 s t 4 w.1 (BitVec.ofNat 32 (off + 1)) w.2 0 ∧ t.fout = s.fout ∧ sameBytes s t ∧
        (dtcRecords d).length = (len - 1) / 4 ∧ recordsAt t (off + 1) (dtcRecords d))

/-- R371, R372, R373: LUT_DTC and LUT_STATUS write the table's text, or the rendering of a miss, to OUTBUF, and zeros
after it; `hex_upper(v, w)` is the w hexadecimal digits of v, the most significant first, each 0 to 9 or A to F in ASCII.
The tables are parameters: the statement holds for every table. -/
def Obligations.LookupsWriteTheirText : Prop :=
  (∀ v w : Nat, (hexUpper v w).length = w ∧
    ∀ k, k < w →
      let d := v / 16 ^ (w - 1 - k) % 16
      ((hexUpper v w).getD k 0).toNat = if d < 10 then 0x30 + d else 0x41 + (d - 10)) ∧
  ∀ s : State, s.ctl = .idle →
    let ascii : String → List Byte := fun x => x.toList.map fun c => BitVec.ofNat 8 c.toNat
    let code : BitVec 24 := s.regs.arg0.extractLsb' 0 24
    let status : BitVec 8 := s.regs.arg0.extractLsb' 0 8
    let result : BitVec 8 → Option DescText → List Byte → State → Prop := fun o entry miss t =>
      let text := match entry with
        | some d => d.bytes
        | none => miss
      PureSuccess o s t 11 (BitVec.ofNat 32 text.length) (if entry.isSome then 1 else 0) 0 0 ∧ t.fout = s.fout ∧
        sameBytesOutside outBase outEnd s t ∧ ∀ k, k < 256 → byteAt t (outBase + k) = text.getD k 0
    (∃ t, exec .lutDtc s = .next t ∧
      result 0x34 (Config.dtcText code) (ascii "unknown code 0x" ++ hexUpper code.toNat 6) t) ∧
    (∃ t, exec .lutStatus s = .next t ∧
      result 0x35 (Config.statusText status) (ascii "unknown status 0x" ++ hexUpper status.toNat 2) t)

/-! ### Starting to send and to receive -/

/-- 42_reassembly.md R255, R243: TP_RECV opens the response window. That the header bytes `hdr` are kept over the bus start,
which sets `hdr_len` to 0, is the model's choice (log entry 13). -/
def Obligations.TpRecvOpensTheResponseWindow : Prop :=
  ∀ s : State, s.ctl = .idle → s.env.busReady = true →
    ∃ t, exec .tpRecv s = .next t ∧ BusStarted 0x10 s t ∧ t.ctl = .respWait ∧ t.timer.lim = t.timer.respLim ∧
      t.port = s.port ∧ t.didCur = s.didCur ∧ t.tx.hdr = s.tx.hdr ∧
      t.tx.hdrLen = 0 ∧ t.tx.len = 0 ∧ t.tx.pos = 0

/-- 43_transmitter.md R295, R280, R282, R283: TP_SEND presents the first frame of TXBUF[0..LEN). That the header bytes `hdr`
are kept over the bus start, which sets `hdr_len` to 0, is the model's choice (log entry 13). -/
def Obligations.TpSendPresentsItsFirstFrame : Prop :=
  ∀ s : State, s.ctl = .idle → s.env.busReady = true →
    let len := s.regs.arg2.toNat % 65536
    len ≤ 4095 →
    ∃ t, exec .tpSend s = .next t ∧ BusStarted 0x11 s t ∧ PresentsPayload s.regs t (txBytes s 0 len) ∧
      t.timer.lim = 0 ∧ t.didCur = s.didCur ∧ t.tx.hdr = s.tx.hdr ∧ t.tx.hdrLen = 0

/-- 44_uds_session.md R322, R326, R330, R334: each Session command presents the first frame of its request. -/
def Obligations.SessionCommandsPresentTheirRequests : Prop :=
  ∀ s : State, s.ctl = .idle → s.env.busReady = true →
    let did : Did := s.regs.arg0.extractLsb' 0 16
    let hi : Byte := s.regs.arg0.extractLsb' 8 8
    let lo : Byte := s.regs.arg0.extractLsb' 0 8
    let len := s.regs.arg2.toNat % 65536
    (∃ t, exec .readDid s = .next t ∧ BusStarted 0x20 s t ∧ t.timer.lim = 0 ∧ t.didCur = did ∧
      PresentsPayload s.regs t [0x22, hi, lo]) ∧
    (len ≤ 4092 → ∃ t, exec .writeDid s = .next t ∧ BusStarted 0x21 s t ∧ t.timer.lim = 0 ∧ t.didCur = did ∧
      PresentsPayload s.regs t ([0x2E, hi, lo] ++ txBytes s 0 len)) ∧
    (∃ t, exec .readDtc s = .next t ∧ BusStarted 0x22 s t ∧ t.timer.lim = 0 ∧ t.didCur = s.didCur ∧
      PresentsPayload s.regs t [0x19, 0x02, 0xFF]) ∧
    (∃ t, exec .clearDtc s = .next t ∧ BusStarted 0x23 s t ∧ t.timer.lim = 0 ∧ t.didCur = s.didCur ∧
      PresentsPayload s.regs t [0x14, 0xFF])

/-- The request rows of the opcode table (30_encoding.md R135): each presents the first frame of its payload; REQ_WRITE_DID
has its data in TXBUF[0..LEN). That a row stands for the request phase alone is the model's choice (log entry 9). -/
def Obligations.RequestRowsPresentTheirPayload : Prop :=
  ∀ s : State,
    (∀ did : Did, ∃ t, exec (.reqReadDid did) s = .next t ∧ RequestFrame s t ∧ sameBytes s t ∧ t.didCur = did ∧
      PresentsPayload s.regs t [0x22, did.extractLsb' 8 8, did.extractLsb' 0 8]) ∧
    (∀ (did : Did) (data : List Byte), data.length ≤ 4092 →
      ∃ t, exec (.reqWriteDid did data) s = .next t ∧ RequestFrame s t ∧
        sameBytesOutside txBase (txBase + data.length) s t ∧ txBytes t 0 data.length = data ∧ t.didCur = did ∧
        PresentsPayload s.regs t ([0x2E, did.extractLsb' 8 8, did.extractLsb' 0 8] ++ data)) ∧
    (∀ sub mask : Byte, ∃ t, exec (.reqReadDtc sub mask) s = .next t ∧ RequestFrame s t ∧ sameBytes s t ∧
      t.didCur = s.didCur ∧ PresentsPayload s.regs t [0x19, sub, mask]) ∧
    (∀ group : Byte, ∃ t, exec (.reqClearDtc group) s = .next t ∧ RequestFrame s t ∧ sameBytes s t ∧
      t.didCur = s.didCur ∧ PresentsPayload s.regs t [0x14, group])

/-! ### Received frames -/

/-- 42_reassembly.md R245, R250: a Single Frame completes TP_RECV with its payload. -/
def Obligations.SingleFrameCompletesTpRecv : Prop :=
  ∀ (s : State) (payload padding : List Byte), s.ctl = .respWait → s.op = opTpRecv → s.rasm.phase = .idle →
    payload.length ≤ 7 →
    ∃ t, exec (.pciSf s.regs.respId payload padding) s = .next t ∧
      ResponseSuccess s t payload 6 (BitVec.ofNat 32 payload.length) 0 0 0 ∧ sameOutbuf s t ∧ WholeResponse s t ∧
      t.rasm.mf = false

/-- 42_reassembly.md R246: a First Frame in Idle starts a reassembly and, with RX_FC_EN = 1, presents the Flow Control
frame `30 00 00`; one declaring fewer than 8 bytes fails with MalformedPci. -/
def Obligations.FirstFrameStartsAReassembly : Prop :=
  ∀ (s : State) (total : BitVec 12) (six : List Byte), s.ctl = .respWait → s.rasm.phase = .idle → six.length = 6 →
    ∃ t, exec (.pciFf s.regs.respId total six) s = .next t ∧
      (total.toNat < 8 → ReassemblyFails s t 0x03 0x810) ∧
      (8 ≤ total.toNat →
        WaitGoesOn s t ∧ sameBytesOutside rxBase (rxBase + 6) s t ∧ rxBytes t 0 6 = six ∧
        t.rasm = { s.rasm with phase := .accumulating, len := 6, exp := total, seq := 1, mf := true } ∧
        (s.regs.cfg.rxFcEn = false → t.ctl = .respWait ∧ t.port = s.port) ∧
        (s.regs.cfg.rxFcEn = true → t.ctl = .rxFc ∧ t.port.valid = true ∧
          t.port.frame = mkFrame s.regs [0x30, 0, 0]))

/-- 42_reassembly.md R248: a Consecutive Frame in sequence appends the bytes the message still lacks; the last one
completes TP_RECV. -/
def Obligations.ConsecutiveFrameInSequenceIsAppended : Prop :=
  ∀ (s : State) (data : List Byte), s.ctl = .respWait → s.rasm.phase = .accumulating →
    s.rasm.len.toNat < s.rasm.exp.toNat → data.length ≤ 7 →
    let len := s.rasm.len.toNat
    let k := min data.length (s.rasm.exp.toNat - len)
    (len + k < s.rasm.exp.toNat → ∃ t, exec (.pciCf s.regs.respId s.rasm.seq data) s = .next t ∧
      WaitGoesOn s t ∧ t.ctl = .respWait ∧ t.port = s.port ∧
      t.rasm = { s.rasm with len := BitVec.ofNat 12 (len + k), seq := s.rasm.seq + 1 } ∧
      sameBytesOutside (rxBase + len) (rxBase + len + k) s t ∧ rxBytes t len k = data.take k) ∧
    (len + k = s.rasm.exp.toNat → s.op = opTpRecv →
      ∃ t, exec (.pciCf s.regs.respId s.rasm.seq data) s = .next t ∧ ReceiveFrame s t ∧ sameOutbuf s t ∧
        Succeeded t 6 (s.rasm.exp.setWidth 32) (if s.rasm.mf then 1 else 0) 0 0 ∧
        t.status.errDetail = s.status.errDetail ∧ t.port.frame = s.port.frame ∧ t.rxLen = s.rasm.exp ∧
        t.rasm = { s.rasm with phase := .complete, len := s.rasm.exp, seq := s.rasm.seq + 1 } ∧
        rxBytes t len k = data.take k ∧
        ∀ j v, j < len → memGet s.mem (rxBase + j) = some v → rxByte t j = v)

/-- 42_reassembly.md R247, R251: in Accumulating a Consecutive Frame out of sequence, a Single Frame or a First Frame fails
with SequenceError, its detail the expected number, the received nibble and the type. -/
def Obligations.FrameOutOfSequenceFailsTheReassembly : Prop :=
  ∀ s : State, s.ctl = .respWait → s.rasm.phase = .accumulating →
    let detail : Nat → Nat → Word32 := fun x type => BitVec.ofNat 32 (s.rasm.seq.toNat + x * 2 ^ 4 + type * 2 ^ 8)
    (∀ (sn : BitVec 4) (data : List Byte), sn ≠ s.rasm.seq →
      ∃ t, exec (.pciCf s.regs.respId sn data) s = .next t ∧ ReassemblyFails s t 0x04 (detail sn.toNat 2)) ∧
    (∀ payload padding : List Byte, payload.length ≤ 7 →
      ∃ t, exec (.pciSf s.regs.respId payload padding) s = .next t ∧
        ReassemblyFails s t 0x04 (detail payload.length 0)) ∧
    (∀ (total : BitVec 12) (six : List Byte),
      ∃ t, exec (.pciFf s.regs.respId total six) s = .next t ∧
        ReassemblyFails s t 0x04 (detail (total.toNat / 256) 1))

/-- Frames that change nothing: of another identifier (42_reassembly.md R241), in IDLE (R242), other than Flow Control in
FC_WAIT (43_transmitter.md R290), out of place in a reassembly (42_reassembly.md R249), other than Single in ACK_WAIT
(44_uds_session.md R336). While `rx_ready` = 0 the block takes no frame (10_state.md R62; log entry 4), and a response
row with no window open is not taken (the model's choice, log entry 9). -/
def Obligations.IgnoredFramesChangeNothing : Prop :=
  ∀ (s : State) (id : CanId) (payload padding six data rest : List Byte) (total : BitVec 12) (sn : BitVec 4)
    (fs : FlowStatus) (bs st : Byte),
    let single := exec (.pciSf id payload padding) s
    let first := exec (.pciFf id total six) s
    let consecutive := exec (.pciCf id sn data) s
    let flowControl := exec (.pciFc id fs bs st padding) s
    (id ≠ s.regs.respId ∨ s.ctl = .idle →
      single = .next s ∧ first = .next s ∧ consecutive = .next s ∧ flowControl = .next s ∧
      ∀ f : Frame, f.id = id → frameReceived f s = .next s) ∧
    (s.ctl = .fcWait → single = .next s ∧ first = .next s ∧ consecutive = .next s) ∧
    (s.ctl = .respWait → s.rasm.phase = .idle → consecutive = .next s ∧ flowControl = .next s) ∧
    (s.ctl = .respWait → s.rasm.phase = .accumulating → flowControl = .next s) ∧
    (s.ctl = .ackWait → first = .next s ∧ consecutive = .next s ∧ flowControl = .next s) ∧
    (rxReady s.ctl = false → rxEvent s = .next s) ∧
    (s.ctl ≠ .respWait → s.ctl ≠ .ackWait →
      exec (.rspReadDid rest) s = .next s ∧ exec (.rspWriteDid rest) s = .next s ∧
      exec (.rspReadDtc rest) s = .next s ∧ exec (.rspClearDtc rest) s = .next s ∧
      exec (.rspNegative rest) s = .next s)

/-- 42_reassembly.md R244, 43_transmitter.md R287, 44_uds_session.md R336: a malformed frame ends every wait with
MalformedPci, whatever the wait was for.
That a failure that ends no reassembly leaves RXBUF as it was is the model's choice (log entry 18). -/
def Obligations.MalformedFrameEndsTheWait : Prop :=
  ∀ (s : State) (f : Frame), f.id = s.regs.respId → classifyFrame f = .malformed →
    let detail := BitVec.ofNat 32 ((f.byte 0).toNat + f.dlc * 2 ^ 8)
    (s.ctl = .fcWait ∨ s.ctl = .ackWait → ∃ t, frameReceived f s = .next t ∧ FlightFails s t 0x03 detail) ∧
    (s.ctl = .respWait → ∃ t, frameReceived f s = .next t ∧ ReassemblyFails s t 0x03 detail)

/-- 42_reassembly.md R256 and the receiving half of R257: the frames of a payload of any length up to 4095, delivered in
order to a TP_RECV, make it finish with that payload in RXBUF. A receive-side Flow Control frame, where one is presented,
is taken at once, and no time passes. R256 and R257 are the spec's own inferences ("derived: from rule R245, rule R248,
43_transmitter.md rule R282 and rule R292"). -/
def Obligations.TpRecvReassemblesEveryPayload : Prop :=
  ∀ (s : State) (p : List Byte), s.ctl = .respWait → s.op = opTpRecv → s.rasm.phase = .idle → p.length ≤ 4095 →
    ∃ t, deliver (framesOf s.regs.respId p) s = .next t ∧ sameOutbuf s t ∧
      ResponseSuccess s t p 6 (BitVec.ofNat 32 p.length) (if p.length ≤ 7 then 0 else 1) 0 0

/-- A reassembled response reaches its response row (42_reassembly.md R250, 44_uds_session.md R320): delivered in frames to
READ_DID or READ_DTC, in one or in many, it leaves what the row leaves: the same STATUS, results, RX_LEN, reassembly
phase and control state, the same payload in RXBUF and the same OUTBUF. What a row stands for is the model's choice (log
entry 9). -/
def Obligations.ReassembledResponsesRunTheirResponseRows : Prop :=
  ∀ (s : State) (p : List Byte) (i : Instr), s.ctl = .respWait → s.op = opReadDid ∨ s.op = opReadDtc →
    s.rasm.phase = .idle → decodeResponse p = .ok i →
    ∃ t u, deliver (framesOf s.regs.respId p) s = .next t ∧ exec i s = .next u ∧
      t.status = u.status ∧ t.res = u.res ∧ t.rxLen = u.rxLen ∧ t.rasm.phase = u.rasm.phase ∧ t.ctl = u.ctl ∧
      t.timer = u.timer ∧ (∀ k, k < p.length → rxByte t k = rxByte u k) ∧
      (∀ a, a < rxBase ∨ outBase ≤ a → byteAt t a = byteAt u a)

/-! ### The Transmitter (43_transmitter.md) -/

/-- R288, R289: in FC_WAIT a ContinueToSend sets the block size and the separation time and presents the next Consecutive
Frame at once; a Wait or an Overflow fails with FlowControlRejected.
That a failure that ends no reassembly leaves RXBUF as it was is the model's choice (log entry 18). -/
def Obligations.FlowControlContinuesOrRejectsTheTransfer : Prop :=
  ∀ (s : State) (bs st : Byte) (padding : List Byte), s.ctl = .fcWait →
    (∃ t, exec (.pciFc s.regs.respId .continueToSend bs st padding) s = .next t ∧ SendFrame s t ∧
      PresentsConsecutive s t ∧ t.status = s.status ∧ t.res = s.res ∧ t.timer = s.timer ∧
      t.tx = { s.tx with bs := bs, stUs := (stDecode st).2, bsCnt := 0, pos := t.tx.pos }) ∧
    (∃ t, exec (.pciFc s.regs.respId .wait bs st padding) s = .next t ∧ FlightFails s t 0x07 1) ∧
    (∃ t, exec (.pciFc s.regs.respId .overflow bs st padding) s = .next t ∧ FlightFails s t 0x07 2)

/-- R293, R294, R286: a taken Consecutive Frame is counted; then the transfer ends, or waits for the next Flow Control
frame, or presents the next Consecutive Frame, or waits out the separation time, in this order. -/
def Obligations.TakenConsecutiveFrameAdvancesTheTransfer : Prop :=
  ∀ s : State, s.ctl = .txCf → isSendOp s.op = true → s.tx.pos.toNat ≤ s.tx.len.toNat →
    let bsCnt := if s.tx.bs ≠ 0 then s.tx.bsCnt + 1 else s.tx.bsCnt
    let counted : Transmitter := { s.tx with nFrames := s.tx.nFrames + 1, seq := s.tx.seq + 1, bsCnt := bsCnt }
    ∃ t, txAnswered true s = .next t ∧
      (s.tx.pos = s.tx.len → TransferEnds s t (s.tx.nFrames + 1) ∧ t.tx = counted) ∧
      (s.tx.pos ≠ s.tx.len → SendFrame s t ∧ t.status = s.status ∧ t.res = s.res) ∧
      (s.tx.pos ≠ s.tx.len → s.tx.bs ≠ 0 ∧ bsCnt = s.tx.bs →
        t.ctl = .fcWait ∧ t.port = { s.port with valid := false } ∧
        t.tx = { counted with nFcWaits := s.tx.nFcWaits + 1 } ∧ t.timer.tmr = 0 ∧
        t.timer.lim.toNat = min (s.regs.fcTimeout.toNat * s.regs.tuUs.toNat) (2 ^ 32 - 1)) ∧
      (s.tx.pos ≠ s.tx.len → ¬ (s.tx.bs ≠ 0 ∧ bsCnt = s.tx.bs) → s.tx.stUs = 0 →
        PresentsConsecutive { s with tx := counted } t ∧ t.tx = { counted with pos := t.tx.pos } ∧
        t.timer = s.timer) ∧
      (s.tx.pos ≠ s.tx.len → ¬ (s.tx.bs ≠ 0 ∧ bsCnt = s.tx.bs) → s.tx.stUs ≠ 0 →
        t.ctl = .stWait ∧ t.port = { s.port with valid := false } ∧ t.tx = counted ∧ t.timer.tmr = 0 ∧
        t.timer.lim = s.tx.stUs)

/-- R284, R285, R286, 42_reassembly.md R254, 40_command_interface.md R180: a taken Single Frame ends the transfer; a taken
First Frame starts the flow-control wait; a taken receive-side Flow Control frame returns to the response window; a
rejected frame ends the command with BusNotReady(1), and with it, in RX_FC, the reassembly (10_state.md R55; that a
rejected frame of a transfer leaves RXBUF as it was is the model's choice, log entry 18). -/
def Obligations.AnsweredFramesMoveTheCommandOn : Prop :=
  ∀ s : State,
    (s.ctl = .txSf → isSendOp s.op = true → ∃ t, txAnswered true s = .next t ∧ TransferEnds s t 1 ∧
      t.tx = { s.tx with nFrames := 1 }) ∧
    (s.ctl = .txFf → ∃ t, txAnswered true s = .next t ∧ SendFrame s t ∧ t.status = s.status ∧ t.res = s.res ∧
      t.ctl = .fcWait ∧ t.port = { s.port with valid := false } ∧
      t.tx = { s.tx with nFrames := 1, nFcWaits := s.tx.nFcWaits + 1 } ∧ t.timer.tmr = 0 ∧
      t.timer.lim.toNat = min (s.regs.fcTimeout.toNat * s.regs.tuUs.toNat) (2 ^ 32 - 1)) ∧
    (s.ctl = .rxFc →
      txAnswered true s = .next { s with ctl := .respWait, port := { s.port with valid := false } }) ∧
    (∃ t, txAnswered false s = .next t ∧
      (s.ctl ≠ .rxFc → FlightFails s t 0x01 1) ∧
      (s.ctl = .rxFc → ReassemblyEnds s t 0x01 1 ∧ t.rasm = s.rasm))

/-- R292, R298, R300 and the sending half of 42_reassembly.md R257: after a ContinueToSend with BS 0 and no separation time,
and after k more taken frames, Consecutive Frame k + 1 is presented, with sequence number (k + 1) mod 16 and the payload
bytes from 6 + 7k; after the last of the ceil((len - 6) / 7) Consecutive Frames the transfer ends. R298, R300 and R257 are
the spec's own inferences ("derived: from rule R283, rule R292 and rule R293"). -/
def Obligations.TransmitterSendsTheWholePayloadInOrder : Prop :=
  ∀ (s : State) (st : Byte) (padding : List Byte), s.ctl = .fcWait → isSendOp s.op = true → (stDecode st).2 = 0 →
    s.tx.pos = 6 → s.tx.seq = 1 → 8 ≤ s.tx.len.toNat →
    let len := s.tx.len.toNat
    let frames := (len - 6 + 6) / 7
    ∃ u, exec (.pciFc s.regs.respId .continueToSend 0 st padding) s = .next u ∧
      (∀ k, k < frames → ∃ t, acknowledge k u = .next t ∧ SendFrame s t ∧ t.ctl = .txCf ∧ t.port.valid = true ∧
        t.tx.nFrames = s.tx.nFrames + BitVec.ofNat 16 k ∧
        t.port.frame = mkFrame s.regs (BitVec.ofNat 8 (0x20 + (k + 1) % 16) ::
          (List.range (min 7 (len - (6 + 7 * k)))).map fun j => payloadByte s (6 + 7 * k + j))) ∧
      (∃ t, acknowledge frames u = .next t ∧ TransferEnds s { t with port := { t.port with frame := s.port.frame } }
        (s.tx.nFrames + BitVec.ofNat 16 frames))

/-! ### Responses (44_uds_session.md) -/

/-- R339, R338, R324: a response whose first byte is not the request SID plus 0x40 is rejected with UnexpectedServiceId by
all four operations, with no result: reassembled for READ_DID and READ_DTC, in a Single Frame for WRITE_DID and
CLEAR_DTC. So is an empty response. R339 is the spec's own inference ("derived: from rule R323, rule R327, rule R331,
rule R335 and rule R324"). -/
def Obligations.WrongServiceIdIsRejectedByEveryOperation : Prop :=
  ∀ (s : State) (p padding : List Byte), p.length ≤ 4095 →
    let expected : Byte :=
      if s.op = opReadDid then 0x62 else if s.op = opWriteDid then 0x6E else if s.op = opReadDtc then 0x59 else 0x54
    let detail := if p.length = 0 then 0x20000 else wrongSidDetail p
    p.length = 0 ∨ p.getD 0 0 ≠ expected →
    (s.ctl = .respWait → s.op = opReadDid ∨ s.op = opReadDtc → s.rasm.phase = .idle →
      ∃ t, deliver (framesOf s.regs.respId p) s = .next t ∧ ResponseFailure s t p 0x08 detail) ∧
    (s.ctl = .ackWait → s.op = opWriteDid ∨ s.op = opClearDtc → p.length ≤ 7 →
      ∃ t, exec (.pciSf s.regs.respId p padding) s = .next t ∧ ResponseFailure s t p 0x08 detail)

/-- RSP_NEGATIVE (30_encoding.md R137, 44_uds_session.md R324, 60_exceptions.md R405): the four operations fail with
UnexpectedServiceId and record the NRC of a negative response of at least 3 bytes. What the row stands for is the model's
choice (log entry 9). -/
def Obligations.NegativeResponseFailsTheOperation : Prop :=
  ∀ (s : State) (rest : List Byte), 1 + rest.length ≤ 4095 →
    (s.ctl = .respWait ∧ (s.op = opReadDid ∨ s.op = opReadDtc)) ∨
      (s.ctl = .ackWait ∧ (s.op = opWriteDid ∨ s.op = opClearDtc)) →
    ∃ t, exec (.rspNegative rest) s = .next t ∧ WholeResponse s t ∧
      ResponseFailure s t (0x7F :: rest) 0x08
        (BitVec.ofNat 32 (if 2 ≤ rest.length then 0x1007F + (rest.getD 1 0).toNat * 2 ^ 8 else 0x7F))

/-- R323, R325 and 45_payload_codecs.md R360: READ_DID checks the DID echo, then decodes the identifier payload by the
registry: ECU info first, then the sensors, else RAW. What the row stands for is the model's choice (log entry 9). -/
def Obligations.ReadDidDecodesItsResponse : Prop :=
  ∀ (s : State) (rest : List Byte), s.ctl = .respWait → s.op = opReadDid → 1 + rest.length ≤ 4095 →
    let p := (0x62 : Byte) :: rest
    let echo := (rest.getD 0 0).toNat * 2 ^ 8 + (rest.getD 1 0).toNat
    let payload := rest.drop 2
    let registered : DidEntry → Prop := fun e => e.valid = true ∧ e.did = s.didCur
    let ecu := registered s.regs.didEcu
    let sensor := registered s.regs.didSensor0 ∨ registered s.regs.didSensor1 ∨ registered s.regs.didSensor2 ∨
      registered s.regs.didSensor3
    let layout := s.regs.cfg.ecuLayout
    let size := if layout = 1 then 98 else 100
    let texts := ecuTexts layout payload
    let echoed : Prop := 2 ≤ rest.length ∧ echo = s.didCur.toNat
    ∃ t, exec (.rspReadDid rest) s = .next t ∧ WholeResponse s t ∧
      (rest.length < 2 → ResponseFailure s t p 0x10 0x10000) ∧
      (2 ≤ rest.length → echo ≠ s.didCur.toNat → ResponseFailure s t p 0x10 (BitVec.ofNat 32 echo)) ∧
      (echoed → ecu → layout = 0 ∨ layout = 3 → ResponseFailure s t p 0x13 (layout.setWidth 32)) ∧
      (echoed → ecu → layout = 1 ∨ layout = 2 → payload.length < size →
        ResponseFailure s t p 0x0A (BitVec.ofNat 32 payload.length)) ∧
      (echoed → ecu → layout = 1 ∨ layout = 2 → size ≤ payload.length →
        ResponseSuccess s t p 1 (ecuLengths texts) (BitVec.ofNat 32 (textLength texts 4)) (layout.setWidth 32) 0 ∧
        outbufHolds t texts ∧ ∀ a, outEnd ≤ a → byteAt t a = byteAt s a) ∧
      (echoed → ¬ ecu → sensor → payload.length < 2 →
        ResponseFailure s t p 0x09 (BitVec.ofNat 32 payload.length)) ∧
      (echoed → ¬ ecu → sensor → 2 ≤ payload.length →
        ResponseSuccess s t p 2 (sensorWords payload).1 (sensorWords payload).2 0 0 ∧ sameOutbuf s t) ∧
      (echoed → ¬ ecu → ¬ sensor →
        ResponseSuccess s t p 3 3 (BitVec.ofNat 32 payload.length) 0 0 ∧ sameOutbuf s t)

/-- R331: READ_DTC reports the DTC list after the subfunction echo, which it does not check; a response with no echo is a
DtcPayloadMalformed. The records are in RXBUF from index 3, each with its code and its status (45_payload_codecs.md R369,
30_encoding.md R138); the byte order of the code is the spec's own inference ("derived: from the example of §8"). What
the row stands for is the model's choice (log entry 9). -/
def Obligations.ReadDtcReportsTheList : Prop :=
  ∀ (s : State) (rest : List Byte), s.ctl = .respWait → s.op = opReadDtc → 1 + rest.length ≤ 4095 →
    let p := (0x59 : Byte) :: rest
    let w := dtcWords (rest.drop 1)
    ∃ t, exec (.rspReadDtc rest) s = .next t ∧ WholeResponse s t ∧
      (rest = [] → ResponseFailure s t p 0x0B 1) ∧
      (rest ≠ [] → ResponseSuccess s t p 4 w.1 3 w.2 0 ∧ sameOutbuf s t ∧
        (dtcRecords (rest.drop 1)).length = (rest.length - 2) / 4 ∧ recordsAt t 3 (dtcRecords (rest.drop 1)))

/-- R327, R335: the acknowledgement of WRITE_DID is exactly `6E did_hi did_lo`, any other `6E` response is a
WriteAckNotObserved(0); the acknowledgement of CLEAR_DTC is any `54` response. What the rows stand for is the model's
choice (log entry 9). -/
def Obligations.AcknowledgementsAreChecked : Prop :=
  ∀ (s : State) (rest : List Byte), s.ctl = .ackWait → 1 + rest.length ≤ 4095 →
    (s.op = opWriteDid → ∃ t, exec (.rspWriteDid rest) s = .next t ∧ WholeResponse s t ∧
      (rest = [s.didCur.extractLsb' 8 8, s.didCur.extractLsb' 0 8] →
        ResponseSuccess s t ((0x6E : Byte) :: rest) 5 0x6E (s.didCur.setWidth 32) 0 0 ∧ sameOutbuf s t) ∧
      (rest ≠ [s.didCur.extractLsb' 8 8, s.didCur.extractLsb' 0 8] →
        ResponseFailure s t ((0x6E : Byte) :: rest) 0x0C 0)) ∧
    (s.op = opClearDtc → ∃ t, exec (.rspClearDtc rest) s = .next t ∧ WholeResponse s t ∧
      ResponseSuccess s t ((0x54 : Byte) :: rest) 5 0x54 0 0 0 ∧ sameOutbuf s t)

/-! ### Events: time, the host port, reset -/

/-- 60_exceptions.md R421, 43_transmitter.md R291, R294, 42_reassembly.md R253, 44_uds_session.md R328, R337: what the timeout
evaluation does in each wait whose limit is reached, and that it does nothing elsewhere.
That a failure that ends no reassembly leaves RXBUF as it was is the model's choice (log entry 18). -/
def Obligations.ExpiredWaitsEnd : Prop :=
  ∀ s : State,
    let t := timeoutEval s
    (s.timer.tmr.toNat < s.timer.lim.toNat → t = s) ∧
    (s.timer.lim.toNat ≤ s.timer.tmr.toNat →
      (s.ctl = .fcWait → FlightFails s t 0x06 (s.tx.pos.setWidth 32)) ∧
      (s.ctl = .stWait → SendFrame s t ∧ PresentsConsecutive s t ∧ t.status = s.status ∧ t.res = s.res ∧
        t.timer = s.timer ∧ t.tx = { s.tx with pos := t.tx.pos }) ∧
      (s.ctl = .respWait →
        ReassemblyFails s t 0x05 (BitVec.ofNat 32 (s.rasm.len.toNat + s.rasm.mf.toNat * 2 ^ 12))) ∧
      (s.ctl = .ackWait → s.op = opWriteDid → FlightFails s t 0x0C 1) ∧
      (s.ctl = .ackWait → s.op ≠ opWriteDid → FlightFails s t 0x05 0) ∧
      (s.ctl = .idle ∨ s.ctl = .txSf ∨ s.ctl = .txFf ∨ s.ctl = .txCf ∨ s.ctl = .rxFc → t = s))

/-- 60_exceptions.md R420, 40_command_interface.md R170, R180: a step hands each event to its rule. A Tick adds its
microseconds to the timer, saturating, in the five waiting states and nowhere else; a TxAck is enabled only while a frame
is presented; the timeout evaluation follows both. That a TxAck which is not enabled is refused is the model's choice (log
entry 11). -/
def Obligations.TickAndTxAckAreHandledWhole : Prop :=
  ∀ (s : State) (rest : List Input),
    let s' : State := { s with env := { s.env with inputs := rest } }
    let waiting : Prop := s.ctl = .fcWait ∨ s.ctl = .stWait ∨ s.ctl = .respWait ∨ s.ctl = .rxFc ∨ s.ctl = .ackWait
    (∀ dt, 1 ≤ dt → s.env.inputs = .tick dt :: rest →
      (waiting → ∃ tmr : Word32, tmr.toNat = min (s.timer.tmr.toNat + dt) (2 ^ 32 - 1) ∧
        step s = .next (timeoutEval { s' with timer := { s.timer with tmr := tmr } })) ∧
      (¬ waiting → step s = .next (timeoutEval s'))) ∧
    (∀ ok, s.env.inputs = .txAck ok :: rest → s.port.valid = true → step s = settle (txAnswered ok s')) ∧
    (∀ ok, s.env.inputs = .txAck ok :: rest → s.port.valid = false → step s = .refused .txAckNotEnabled)

/-- 20_memory.md R82, R81, 70_reset_and_hazards.md R460: a step that handles an aligned host write to an offset other
than CMD stores it (`hostStore`), followed by the timeout evaluation (60_exceptions.md R421). While BUSY = 0 the store
makes that offset read back the written value in its named bits and 0 elsewhere if it is writable, and changes no other
word of the map; while BUSY = 1 it changes nothing. -/
def Obligations.HostWriteReadsBackInTheNamedBits : Prop :=
  ∀ (s : State) (addr : BitVec 16) (v : Word32), addr.toNat % 4 = 0 → 0 < addr.toNat → addr.toNat < 0x4000 →
    let a := addr.toNat
    (∀ rest, s.env.inputs = .hostWrite addr 4 v :: rest →
      let s' : State := { s with env := { s.env with inputs := rest } }
      step s = settle (.next (hostStore a v s')) ∧ (s.ctl = .idle → step s = .next (hostStore a v s'))) ∧
    (s.ctl ≠ .idle → hostStore a v s = s) ∧
    (s.ctl = .idle →
      (writableBits a ≠ 0 → memRead (hostStore a v s) a = v &&& writableBits a) ∧
      (∀ b, b % 4 = 0 → b < 0x4000 → b ≠ a ∨ writableBits a = 0 → memRead (hostStore a v s) b = memRead s b) ∧
      ({ hostStore a v s with regs := s.regs, mem := s.mem } : State) = s)

/-- 20_memory.md R81, R83: a host read of an aligned 32-bit word below 0x4000 returns the word and changes nothing of the
block; every other access is refused. The words of all registers (20_memory.md R90, 10_state.md R31 to R53) and of the
buffers, little-endian (R87), are as the map has them, and the reserved offsets read 0 (10_state.md R65). That the word
returned is kept in `env.hostRdata` is the model's choice (log entry 6). -/
def Obligations.HostPortCarriesAlignedWords : Prop :=
  ∀ (s : State) (addr : BitVec 16) (width : Nat) (v : Word32),
    let carried : Prop := width = 4 ∧ addr.toNat % 4 = 0 ∧ addr.toNat < 0x4000
    (carried → ∃ t, hostRead addr width s = .next t ∧ t.env.hostRdata = memRead s addr.toNat ∧
      t = { s with env := { s.env with hostRdata := t.env.hostRdata } }) ∧
    (¬ carried → hostRead addr width s = .refused .hostAccessOutsideContract ∧
      hostWrite addr width v s = .refused .hostAccessOutsideContract) ∧
    (∀ row ∈ [(0x000, 0), (0x004, statusWord s), (0x008, s.status.errDetail),
        (0x010, s.regs.reqId.setWidth 32), (0x014, s.regs.respId.setWidth 32), (0x018, s.regs.tuUs),
        (0x01C, s.regs.fcTimeout.setWidth 32), (0x020, s.regs.defTimeout.setWidth 32),
        (0x040, s.regs.arg0), (0x044, s.regs.arg1), (0x048, s.regs.arg2), (0x04C, s.regs.arg3),
        (0x050, s.res.r0), (0x054, s.res.r1), (0x058, s.res.r2), (0x05C, s.res.r3),
        (0x060, s.res.kind.setWidth 32), (0x064, s.rxLen.setWidth 32),
        (0x070, s.regs.fin.id.setWidth 32), (0x074, s.regs.fin.dlc.setWidth 32), (0x078, s.regs.fin.d03),
        (0x07C, s.regs.fin.d47),
        (0x080, s.fout.id.setWidth 32), (0x084, s.fout.dlc.setWidth 32), (0x088, s.fout.d03), (0x08C, s.fout.d47)],
      memRead s row.1 = row.2) ∧
    (memRead s 0x00C).toNat = s.regs.cfg.ecuLayout.toNat + s.regs.cfg.padEn.toNat * 2 ^ 2
      + s.regs.cfg.rxFcEn.toNat * 2 ^ 3 + s.regs.cfg.padByte.toNat * 2 ^ 8 ∧
    (∀ row ∈ [(0x024, s.regs.didEcu), (0x028, s.regs.didSensor0), (0x02C, s.regs.didSensor1),
        (0x030, s.regs.didSensor2), (0x034, s.regs.didSensor3)],
      (memRead s row.1).toNat = row.2.did.toNat + row.2.valid.toNat * 2 ^ 16) ∧
    (∀ a, a % 4 = 0 → 0x038 ≤ a ∧ a < 0x040 ∨ 0x068 ≤ a ∧ a < 0x070 ∨ 0x090 ≤ a ∧ a < txBase ∨
      outEnd ≤ a ∧ a < hostEnd → memRead s a = 0) ∧
    (∀ a, txBase ≤ a → a < outEnd → a % 4 = 0 → (memRead s a).toNat =
      (byteAt s a).toNat + (byteAt s (a + 1)).toNat * 2 ^ 8 + (byteAt s (a + 2)).toNat * 2 ^ 16
        + (byteAt s (a + 3)).toNat * 2 ^ 24)

/-- 70_reset_and_hazards.md R450, R451: Reset gives every register and internal state its reset value, leaves the external
FIFO alone and is followed by no timeout evaluation; the values the host reads then are those of the table, and OUTBUF
reads 0. That the rest of the schedule, the `bus_ready` level and the word last read are kept is the model's choice (log
entries 3, 5, 6). -/
def Obligations.ResetRestoresEveryRegister : Prop :=
  ∀ (s : State) (rest : List Input), s.env.inputs = .reset :: rest →
    ∃ t, step s = .next t ∧ t = { State.reset with env := t.env, draws := t.draws } ∧
      t.env = { s.env with inputs := rest } ∧
      memRead t 0x00C = 0x00000008 ∧ memRead t 0x010 = 0x7E0 ∧ memRead t 0x014 = 0x7E8 ∧
      memRead t 0x018 = 1000000 ∧ memRead t 0x01C = 2 ∧ memRead t 0x020 = 3 ∧
      (∀ a, a < 0x1000 → a ∉ [0x00C, 0x010, 0x014, 0x018, 0x01C, 0x020] → memRead t a = 0) ∧
      (∀ a, outBase ≤ a → a < outEnd → byteAt t a = 0) ∧ rxReady t.ctl = true ∧ t.port.valid = false

/-- The state after reset satisfies the invariant. -/
def Obligations.ResetStateHasInv : Prop := Inv State.reset

/-- Every step keeps the invariant: the TX port, the operation in flight and the reassembly state fit the control state
(10_state.md R61, 42_reassembly.md R244); from acceptance to the end of a command the results, DONE, ERR and ERRCODE are 0,
and a failure shows no result (10_state.md R32, R36, R38, R40, 70_reset_and_hazards.md R461); the buffers stay in
canonical form, in every order of events. The canonical form is the model's own way to hold the buffers. -/
def Obligations.StepKeepsInv : Prop := ∀ s t : State, Inv s → step s = .next t → Inv t

/-- Under the invariant no step ends in one of the model's faults (log entry 10). -/
def Obligations.StepNeverFaults : Prop := ∀ s : State, Inv s → notFault (step s) = true
end

