-- ==== Sys2Proof/Laws/State.lean ====
section
/-! SUPPORT. For each named operation on the state, one lemma per field, true by definition, so that no later proof
unfolds a record update. -/

namespace Sys2Proof.Machine

/-! ### endCommand -/

@[simp] theorem endCommand_regs (s : State) :
    (endCommand s).regs = s.regs := rfl
@[simp] theorem endCommand_status (s : State) :
    (endCommand s).status = s.status := rfl
@[simp] theorem endCommand_res (s : State) :
    (endCommand s).res = s.res := rfl
@[simp] theorem endCommand_rxLen (s : State) :
    (endCommand s).rxLen = s.rxLen := rfl
@[simp] theorem endCommand_fout (s : State) :
    (endCommand s).fout = s.fout := rfl
@[simp] theorem endCommand_mem (s : State) :
    (endCommand s).mem = s.mem := rfl
@[simp] theorem endCommand_ctl (s : State) :
    (endCommand s).ctl = .idle := rfl
@[simp] theorem endCommand_op (s : State) :
    (endCommand s).op = s.op := rfl
@[simp] theorem endCommand_tx (s : State) :
    (endCommand s).tx = s.tx := rfl
@[simp] theorem endCommand_rasm (s : State) :
    (endCommand s).rasm = s.rasm := rfl
@[simp] theorem endCommand_timer (s : State) :
    (endCommand s).timer = { s.timer with tmr := 0, lim := 0 } := rfl
@[simp] theorem endCommand_port (s : State) :
    (endCommand s).port = { s.port with valid := false } := rfl
@[simp] theorem endCommand_didCur (s : State) :
    (endCommand s).didCur = s.didCur := rfl
@[simp] theorem endCommand_env (s : State) :
    (endCommand s).env = s.env := rfl
@[simp] theorem endCommand_draws (s : State) :
    (endCommand s).draws = s.draws := rfl

/-! ### raise -/

@[simp] theorem raise_regs (e : CmdError) (s : State) :
    (raise e s).regs = s.regs := rfl
@[simp] theorem raise_status (e : CmdError) (s : State) :
    (raise e s).status = { s.status with err := true, errcode := errorCode e, errDetail := errorDetail e, done := true } := rfl
@[simp] theorem raise_res (e : CmdError) (s : State) :
    (raise e s).res = s.res := rfl
@[simp] theorem raise_rxLen (e : CmdError) (s : State) :
    (raise e s).rxLen = s.rxLen := rfl
@[simp] theorem raise_fout (e : CmdError) (s : State) :
    (raise e s).fout = s.fout := rfl
@[simp] theorem raise_mem (e : CmdError) (s : State) :
    (raise e s).mem = s.mem := rfl
@[simp] theorem raise_ctl (e : CmdError) (s : State) :
    (raise e s).ctl = .idle := rfl
@[simp] theorem raise_op (e : CmdError) (s : State) :
    (raise e s).op = s.op := rfl
@[simp] theorem raise_tx (e : CmdError) (s : State) :
    (raise e s).tx = s.tx := rfl
@[simp] theorem raise_rasm (e : CmdError) (s : State) :
    (raise e s).rasm = s.rasm := rfl
@[simp] theorem raise_timer (e : CmdError) (s : State) :
    (raise e s).timer = { s.timer with tmr := 0, lim := 0 } := rfl
@[simp] theorem raise_port (e : CmdError) (s : State) :
    (raise e s).port = { s.port with valid := false } := rfl
@[simp] theorem raise_didCur (e : CmdError) (s : State) :
    (raise e s).didCur = s.didCur := rfl
@[simp] theorem raise_env (e : CmdError) (s : State) :
    (raise e s).env = s.env := rfl
@[simp] theorem raise_draws (e : CmdError) (s : State) :
    (raise e s).draws = s.draws := rfl

/-! ### finish -/

@[simp] theorem finish_regs (k : ResKind) (r0 r1 r2 r3 : Word32) (s : State) :
    (finish k r0 r1 r2 r3 s).regs = s.regs := rfl
@[simp] theorem finish_status (k : ResKind) (r0 r1 r2 r3 : Word32) (s : State) :
    (finish k r0 r1 r2 r3 s).status = { s.status with err := false, errcode := 0, done := true } := rfl
@[simp] theorem finish_res (k : ResKind) (r0 r1 r2 r3 : Word32) (s : State) :
    (finish k r0 r1 r2 r3 s).res = { kind := resKindCode k, r0 := r0, r1 := r1, r2 := r2, r3 := r3 } := rfl
@[simp] theorem finish_rxLen (k : ResKind) (r0 r1 r2 r3 : Word32) (s : State) :
    (finish k r0 r1 r2 r3 s).rxLen = s.rxLen := rfl
@[simp] theorem finish_fout (k : ResKind) (r0 r1 r2 r3 : Word32) (s : State) :
    (finish k r0 r1 r2 r3 s).fout = s.fout := rfl
@[simp] theorem finish_mem (k : ResKind) (r0 r1 r2 r3 : Word32) (s : State) :
    (finish k r0 r1 r2 r3 s).mem = s.mem := rfl
@[simp] theorem finish_ctl (k : ResKind) (r0 r1 r2 r3 : Word32) (s : State) :
    (finish k r0 r1 r2 r3 s).ctl = .idle := rfl
@[simp] theorem finish_op (k : ResKind) (r0 r1 r2 r3 : Word32) (s : State) :
    (finish k r0 r1 r2 r3 s).op = s.op := rfl
@[simp] theorem finish_tx (k : ResKind) (r0 r1 r2 r3 : Word32) (s : State) :
    (finish k r0 r1 r2 r3 s).tx = s.tx := rfl
@[simp] theorem finish_rasm (k : ResKind) (r0 r1 r2 r3 : Word32) (s : State) :
    (finish k r0 r1 r2 r3 s).rasm = s.rasm := rfl
@[simp] theorem finish_timer (k : ResKind) (r0 r1 r2 r3 : Word32) (s : State) :
    (finish k r0 r1 r2 r3 s).timer = { s.timer with tmr := 0, lim := 0 } := rfl
@[simp] theorem finish_port (k : ResKind) (r0 r1 r2 r3 : Word32) (s : State) :
    (finish k r0 r1 r2 r3 s).port = { s.port with valid := false } := rfl
@[simp] theorem finish_didCur (k : ResKind) (r0 r1 r2 r3 : Word32) (s : State) :
    (finish k r0 r1 r2 r3 s).didCur = s.didCur := rfl
@[simp] theorem finish_env (k : ResKind) (r0 r1 r2 r3 : Word32) (s : State) :
    (finish k r0 r1 r2 r3 s).env = s.env := rfl
@[simp] theorem finish_draws (k : ResKind) (r0 r1 r2 r3 : Word32) (s : State) :
    (finish k r0 r1 r2 r3 s).draws = s.draws := rfl

/-! ### accept -/

@[simp] theorem accept_regs (o : BitVec 8) (s : State) :
    (accept o s).regs = s.regs := rfl
@[simp] theorem accept_status (o : BitVec 8) (s : State) :
    (accept o s).status = { done := false, err := false, cmdRejected := false, errcode := 0, errDetail := 0 } := rfl
@[simp] theorem accept_res (o : BitVec 8) (s : State) :
    (accept o s).res = Results.none := rfl
@[simp] theorem accept_rxLen (o : BitVec 8) (s : State) :
    (accept o s).rxLen = s.rxLen := rfl
@[simp] theorem accept_fout (o : BitVec 8) (s : State) :
    (accept o s).fout = s.fout := rfl
@[simp] theorem accept_mem (o : BitVec 8) (s : State) :
    (accept o s).mem = s.mem := rfl
@[simp] theorem accept_ctl (o : BitVec 8) (s : State) :
    (accept o s).ctl = s.ctl := rfl
@[simp] theorem accept_op (o : BitVec 8) (s : State) :
    (accept o s).op = o := rfl
@[simp] theorem accept_tx (o : BitVec 8) (s : State) :
    (accept o s).tx = s.tx := rfl
@[simp] theorem accept_rasm (o : BitVec 8) (s : State) :
    (accept o s).rasm = s.rasm := rfl
@[simp] theorem accept_timer (o : BitVec 8) (s : State) :
    (accept o s).timer = s.timer := rfl
@[simp] theorem accept_port (o : BitVec 8) (s : State) :
    (accept o s).port = s.port := rfl
@[simp] theorem accept_didCur (o : BitVec 8) (s : State) :
    (accept o s).didCur = s.didCur := rfl
@[simp] theorem accept_env (o : BitVec 8) (s : State) :
    (accept o s).env = s.env := rfl
@[simp] theorem accept_draws (o : BitVec 8) (s : State) :
    (accept o s).draws = s.draws := rfl

/-! ### busInit -/

@[simp] theorem busInit_regs (s : State) :
    (busInit s).regs = s.regs := rfl
@[simp] theorem busInit_status (s : State) :
    (busInit s).status = s.status := rfl
@[simp] theorem busInit_res (s : State) :
    (busInit s).res = s.res := rfl
@[simp] theorem busInit_rxLen (s : State) :
    (busInit s).rxLen = 0 := rfl
@[simp] theorem busInit_fout (s : State) :
    (busInit s).fout = s.fout := rfl
@[simp] theorem busInit_mem (s : State) :
    (busInit s).mem = s.mem := rfl
@[simp] theorem busInit_ctl (s : State) :
    (busInit s).ctl = s.ctl := rfl
@[simp] theorem busInit_op (s : State) :
    (busInit s).op = s.op := rfl
@[simp] theorem busInit_tx (s : State) :
    (busInit s).tx = { s.tx with
      hdrLen := 0, len := 0, pos := 0, seq := 1, bs := 0, bsCnt := 0, stUs := 0, nFrames := 0, nFcWaits := 0 } := rfl
@[simp] theorem busInit_rasm (s : State) :
    (busInit s).rasm = { phase := .idle, exp := 0, len := 0, seq := 0, mf := false, why := 0 } := rfl
@[simp] theorem busInit_timer (s : State) :
    (busInit s).timer = { tmr := 0, lim := 0, respLim := sat32 (windowUnits s.regs * s.regs.tuUs.toNat) } := rfl
@[simp] theorem busInit_port (s : State) :
    (busInit s).port = s.port := rfl
@[simp] theorem busInit_didCur (s : State) :
    (busInit s).didCur = s.didCur := rfl
@[simp] theorem busInit_env (s : State) :
    (busInit s).env = s.env := rfl
@[simp] theorem busInit_draws (s : State) :
    (busInit s).draws = s.draws := rfl

/-! ### emit -/

@[simp] theorem emit_regs (f : Frame) (c : Ctl) (s : State) :
    (emit f c s).regs = s.regs := rfl
@[simp] theorem emit_status (f : Frame) (c : Ctl) (s : State) :
    (emit f c s).status = s.status := rfl
@[simp] theorem emit_res (f : Frame) (c : Ctl) (s : State) :
    (emit f c s).res = s.res := rfl
@[simp] theorem emit_rxLen (f : Frame) (c : Ctl) (s : State) :
    (emit f c s).rxLen = s.rxLen := rfl
@[simp] theorem emit_fout (f : Frame) (c : Ctl) (s : State) :
    (emit f c s).fout = s.fout := rfl
@[simp] theorem emit_mem (f : Frame) (c : Ctl) (s : State) :
    (emit f c s).mem = s.mem := rfl
@[simp] theorem emit_ctl (f : Frame) (c : Ctl) (s : State) :
    (emit f c s).ctl = c := rfl
@[simp] theorem emit_op (f : Frame) (c : Ctl) (s : State) :
    (emit f c s).op = s.op := rfl
@[simp] theorem emit_tx (f : Frame) (c : Ctl) (s : State) :
    (emit f c s).tx = s.tx := rfl
@[simp] theorem emit_rasm (f : Frame) (c : Ctl) (s : State) :
    (emit f c s).rasm = s.rasm := rfl
@[simp] theorem emit_timer (f : Frame) (c : Ctl) (s : State) :
    (emit f c s).timer = s.timer := rfl
@[simp] theorem emit_port (f : Frame) (c : Ctl) (s : State) :
    (emit f c s).port = { valid := true, frame := f } := rfl
@[simp] theorem emit_didCur (f : Frame) (c : Ctl) (s : State) :
    (emit f c s).didCur = s.didCur := rfl
@[simp] theorem emit_env (f : Frame) (c : Ctl) (s : State) :
    (emit f c s).env = s.env := rfl
@[simp] theorem emit_draws (f : Frame) (c : Ctl) (s : State) :
    (emit f c s).draws = s.draws := rfl

/-! ### storeAt -/

@[simp] theorem storeAt_regs (a : Nat) (bs : List Byte) (s : State) :
    (storeAt s a bs).regs = s.regs := rfl
@[simp] theorem storeAt_status (a : Nat) (bs : List Byte) (s : State) :
    (storeAt s a bs).status = s.status := rfl
@[simp] theorem storeAt_res (a : Nat) (bs : List Byte) (s : State) :
    (storeAt s a bs).res = s.res := rfl
@[simp] theorem storeAt_rxLen (a : Nat) (bs : List Byte) (s : State) :
    (storeAt s a bs).rxLen = s.rxLen := rfl
@[simp] theorem storeAt_fout (a : Nat) (bs : List Byte) (s : State) :
    (storeAt s a bs).fout = s.fout := rfl
@[simp] theorem storeAt_mem (a : Nat) (bs : List Byte) (s : State) :
    (storeAt s a bs).mem = memStoreBytes s.mem a bs := rfl
@[simp] theorem storeAt_ctl (a : Nat) (bs : List Byte) (s : State) :
    (storeAt s a bs).ctl = s.ctl := rfl
@[simp] theorem storeAt_op (a : Nat) (bs : List Byte) (s : State) :
    (storeAt s a bs).op = s.op := rfl
@[simp] theorem storeAt_tx (a : Nat) (bs : List Byte) (s : State) :
    (storeAt s a bs).tx = s.tx := rfl
@[simp] theorem storeAt_rasm (a : Nat) (bs : List Byte) (s : State) :
    (storeAt s a bs).rasm = s.rasm := rfl
@[simp] theorem storeAt_timer (a : Nat) (bs : List Byte) (s : State) :
    (storeAt s a bs).timer = s.timer := rfl
@[simp] theorem storeAt_port (a : Nat) (bs : List Byte) (s : State) :
    (storeAt s a bs).port = s.port := rfl
@[simp] theorem storeAt_didCur (a : Nat) (bs : List Byte) (s : State) :
    (storeAt s a bs).didCur = s.didCur := rfl
@[simp] theorem storeAt_env (a : Nat) (bs : List Byte) (s : State) :
    (storeAt s a bs).env = s.env := rfl
@[simp] theorem storeAt_draws (a : Nat) (bs : List Byte) (s : State) :
    (storeAt s a bs).draws = s.draws := rfl

/-! ### storeTx -/

@[simp] theorem storeTx_regs (k : Nat) (bs : List Byte) (s : State) :
    (storeTx s k bs).regs = s.regs := rfl
@[simp] theorem storeTx_status (k : Nat) (bs : List Byte) (s : State) :
    (storeTx s k bs).status = s.status := rfl
@[simp] theorem storeTx_res (k : Nat) (bs : List Byte) (s : State) :
    (storeTx s k bs).res = s.res := rfl
@[simp] theorem storeTx_rxLen (k : Nat) (bs : List Byte) (s : State) :
    (storeTx s k bs).rxLen = s.rxLen := rfl
@[simp] theorem storeTx_fout (k : Nat) (bs : List Byte) (s : State) :
    (storeTx s k bs).fout = s.fout := rfl
@[simp] theorem storeTx_mem (k : Nat) (bs : List Byte) (s : State) :
    (storeTx s k bs).mem = memStoreBytes s.mem (txBase + k) bs := rfl
@[simp] theorem storeTx_ctl (k : Nat) (bs : List Byte) (s : State) :
    (storeTx s k bs).ctl = s.ctl := rfl
@[simp] theorem storeTx_op (k : Nat) (bs : List Byte) (s : State) :
    (storeTx s k bs).op = s.op := rfl
@[simp] theorem storeTx_tx (k : Nat) (bs : List Byte) (s : State) :
    (storeTx s k bs).tx = s.tx := rfl
@[simp] theorem storeTx_rasm (k : Nat) (bs : List Byte) (s : State) :
    (storeTx s k bs).rasm = s.rasm := rfl
@[simp] theorem storeTx_timer (k : Nat) (bs : List Byte) (s : State) :
    (storeTx s k bs).timer = s.timer := rfl
@[simp] theorem storeTx_port (k : Nat) (bs : List Byte) (s : State) :
    (storeTx s k bs).port = s.port := rfl
@[simp] theorem storeTx_didCur (k : Nat) (bs : List Byte) (s : State) :
    (storeTx s k bs).didCur = s.didCur := rfl
@[simp] theorem storeTx_env (k : Nat) (bs : List Byte) (s : State) :
    (storeTx s k bs).env = s.env := rfl
@[simp] theorem storeTx_draws (k : Nat) (bs : List Byte) (s : State) :
    (storeTx s k bs).draws = s.draws := rfl

/-! ### storeRx -/

@[simp] theorem storeRx_regs (k : Nat) (bs : List Byte) (s : State) :
    (storeRx s k bs).regs = s.regs := rfl
@[simp] theorem storeRx_status (k : Nat) (bs : List Byte) (s : State) :
    (storeRx s k bs).status = s.status := rfl
@[simp] theorem storeRx_res (k : Nat) (bs : List Byte) (s : State) :
    (storeRx s k bs).res = s.res := rfl
@[simp] theorem storeRx_rxLen (k : Nat) (bs : List Byte) (s : State) :
    (storeRx s k bs).rxLen = s.rxLen := rfl
@[simp] theorem storeRx_fout (k : Nat) (bs : List Byte) (s : State) :
    (storeRx s k bs).fout = s.fout := rfl
@[simp] theorem storeRx_mem (k : Nat) (bs : List Byte) (s : State) :
    (storeRx s k bs).mem = memStoreBytes s.mem (rxBase + k) bs := rfl
@[simp] theorem storeRx_ctl (k : Nat) (bs : List Byte) (s : State) :
    (storeRx s k bs).ctl = s.ctl := rfl
@[simp] theorem storeRx_op (k : Nat) (bs : List Byte) (s : State) :
    (storeRx s k bs).op = s.op := rfl
@[simp] theorem storeRx_tx (k : Nat) (bs : List Byte) (s : State) :
    (storeRx s k bs).tx = s.tx := rfl
@[simp] theorem storeRx_rasm (k : Nat) (bs : List Byte) (s : State) :
    (storeRx s k bs).rasm = s.rasm := rfl
@[simp] theorem storeRx_timer (k : Nat) (bs : List Byte) (s : State) :
    (storeRx s k bs).timer = s.timer := rfl
@[simp] theorem storeRx_port (k : Nat) (bs : List Byte) (s : State) :
    (storeRx s k bs).port = s.port := rfl
@[simp] theorem storeRx_didCur (k : Nat) (bs : List Byte) (s : State) :
    (storeRx s k bs).didCur = s.didCur := rfl
@[simp] theorem storeRx_env (k : Nat) (bs : List Byte) (s : State) :
    (storeRx s k bs).env = s.env := rfl
@[simp] theorem storeRx_draws (k : Nat) (bs : List Byte) (s : State) :
    (storeRx s k bs).draws = s.draws := rfl

/-! ### storeOut -/

@[simp] theorem storeOut_regs (k : Nat) (bs : List Byte) (s : State) :
    (storeOut s k bs).regs = s.regs := rfl
@[simp] theorem storeOut_status (k : Nat) (bs : List Byte) (s : State) :
    (storeOut s k bs).status = s.status := rfl
@[simp] theorem storeOut_res (k : Nat) (bs : List Byte) (s : State) :
    (storeOut s k bs).res = s.res := rfl
@[simp] theorem storeOut_rxLen (k : Nat) (bs : List Byte) (s : State) :
    (storeOut s k bs).rxLen = s.rxLen := rfl
@[simp] theorem storeOut_fout (k : Nat) (bs : List Byte) (s : State) :
    (storeOut s k bs).fout = s.fout := rfl
@[simp] theorem storeOut_mem (k : Nat) (bs : List Byte) (s : State) :
    (storeOut s k bs).mem = memStoreBytes s.mem (outBase + k) bs := rfl
@[simp] theorem storeOut_ctl (k : Nat) (bs : List Byte) (s : State) :
    (storeOut s k bs).ctl = s.ctl := rfl
@[simp] theorem storeOut_op (k : Nat) (bs : List Byte) (s : State) :
    (storeOut s k bs).op = s.op := rfl
@[simp] theorem storeOut_tx (k : Nat) (bs : List Byte) (s : State) :
    (storeOut s k bs).tx = s.tx := rfl
@[simp] theorem storeOut_rasm (k : Nat) (bs : List Byte) (s : State) :
    (storeOut s k bs).rasm = s.rasm := rfl
@[simp] theorem storeOut_timer (k : Nat) (bs : List Byte) (s : State) :
    (storeOut s k bs).timer = s.timer := rfl
@[simp] theorem storeOut_port (k : Nat) (bs : List Byte) (s : State) :
    (storeOut s k bs).port = s.port := rfl
@[simp] theorem storeOut_didCur (k : Nat) (bs : List Byte) (s : State) :
    (storeOut s k bs).didCur = s.didCur := rfl
@[simp] theorem storeOut_env (k : Nat) (bs : List Byte) (s : State) :
    (storeOut s k bs).env = s.env := rfl
@[simp] theorem storeOut_draws (k : Nat) (bs : List Byte) (s : State) :
    (storeOut s k bs).draws = s.draws := rfl

/-! ### zeroOut -/

@[simp] theorem zeroOut_regs (s : State) :
    (zeroOut s).regs = s.regs := rfl
@[simp] theorem zeroOut_status (s : State) :
    (zeroOut s).status = s.status := rfl
@[simp] theorem zeroOut_res (s : State) :
    (zeroOut s).res = s.res := rfl
@[simp] theorem zeroOut_rxLen (s : State) :
    (zeroOut s).rxLen = s.rxLen := rfl
@[simp] theorem zeroOut_fout (s : State) :
    (zeroOut s).fout = s.fout := rfl
@[simp] theorem zeroOut_mem (s : State) :
    (zeroOut s).mem = memDrop s.mem outBase outEnd := rfl
@[simp] theorem zeroOut_ctl (s : State) :
    (zeroOut s).ctl = s.ctl := rfl
@[simp] theorem zeroOut_op (s : State) :
    (zeroOut s).op = s.op := rfl
@[simp] theorem zeroOut_tx (s : State) :
    (zeroOut s).tx = s.tx := rfl
@[simp] theorem zeroOut_rasm (s : State) :
    (zeroOut s).rasm = s.rasm := rfl
@[simp] theorem zeroOut_timer (s : State) :
    (zeroOut s).timer = s.timer := rfl
@[simp] theorem zeroOut_port (s : State) :
    (zeroOut s).port = s.port := rfl
@[simp] theorem zeroOut_didCur (s : State) :
    (zeroOut s).didCur = s.didCur := rfl
@[simp] theorem zeroOut_env (s : State) :
    (zeroOut s).env = s.env := rfl
@[simp] theorem zeroOut_draws (s : State) :
    (zeroOut s).draws = s.draws := rfl

/-! ### forgetRx -/

@[simp] theorem forgetRx_regs (n : Nat) (s : State) :
    (forgetRx s n).regs = s.regs := rfl
@[simp] theorem forgetRx_status (n : Nat) (s : State) :
    (forgetRx s n).status = s.status := rfl
@[simp] theorem forgetRx_res (n : Nat) (s : State) :
    (forgetRx s n).res = s.res := rfl
@[simp] theorem forgetRx_rxLen (n : Nat) (s : State) :
    (forgetRx s n).rxLen = s.rxLen := rfl
@[simp] theorem forgetRx_fout (n : Nat) (s : State) :
    (forgetRx s n).fout = s.fout := rfl
@[simp] theorem forgetRx_mem (n : Nat) (s : State) :
    (forgetRx s n).mem = memDrop s.mem (rxBase + n) outBase := rfl
@[simp] theorem forgetRx_ctl (n : Nat) (s : State) :
    (forgetRx s n).ctl = s.ctl := rfl
@[simp] theorem forgetRx_op (n : Nat) (s : State) :
    (forgetRx s n).op = s.op := rfl
@[simp] theorem forgetRx_tx (n : Nat) (s : State) :
    (forgetRx s n).tx = s.tx := rfl
@[simp] theorem forgetRx_rasm (n : Nat) (s : State) :
    (forgetRx s n).rasm = s.rasm := rfl
@[simp] theorem forgetRx_timer (n : Nat) (s : State) :
    (forgetRx s n).timer = s.timer := rfl
@[simp] theorem forgetRx_port (n : Nat) (s : State) :
    (forgetRx s n).port = s.port := rfl
@[simp] theorem forgetRx_didCur (n : Nat) (s : State) :
    (forgetRx s n).didCur = s.didCur := rfl
@[simp] theorem forgetRx_env (n : Nat) (s : State) :
    (forgetRx s n).env = s.env := rfl
@[simp] theorem forgetRx_draws (n : Nat) (s : State) :
    (forgetRx s n).draws = { s.draws with rxbuf := s.draws.rxbuf + 1 } := rfl

/-! ### putFout -/

@[simp] theorem putFout_regs (f : Frame) (s : State) :
    (putFout f s).regs = s.regs := rfl
@[simp] theorem putFout_status (f : Frame) (s : State) :
    (putFout f s).status = s.status := rfl
@[simp] theorem putFout_res (f : Frame) (s : State) :
    (putFout f s).res = s.res := rfl
@[simp] theorem putFout_rxLen (f : Frame) (s : State) :
    (putFout f s).rxLen = s.rxLen := rfl
@[simp] theorem putFout_fout (f : Frame) (s : State) :
    (putFout f s).fout = frameToRegs f := rfl
@[simp] theorem putFout_mem (f : Frame) (s : State) :
    (putFout f s).mem = s.mem := rfl
@[simp] theorem putFout_ctl (f : Frame) (s : State) :
    (putFout f s).ctl = s.ctl := rfl
@[simp] theorem putFout_op (f : Frame) (s : State) :
    (putFout f s).op = s.op := rfl
@[simp] theorem putFout_tx (f : Frame) (s : State) :
    (putFout f s).tx = s.tx := rfl
@[simp] theorem putFout_rasm (f : Frame) (s : State) :
    (putFout f s).rasm = s.rasm := rfl
@[simp] theorem putFout_timer (f : Frame) (s : State) :
    (putFout f s).timer = s.timer := rfl
@[simp] theorem putFout_port (f : Frame) (s : State) :
    (putFout f s).port = s.port := rfl
@[simp] theorem putFout_didCur (f : Frame) (s : State) :
    (putFout f s).didCur = s.didCur := rfl
@[simp] theorem putFout_env (f : Frame) (s : State) :
    (putFout f s).env = s.env := rfl
@[simp] theorem putFout_draws (f : Frame) (s : State) :
    (putFout f s).draws = s.draws := rfl

/-! ### rasmStart -/

@[simp] theorem rasmStart_regs (s : State) :
    (rasmStart s).regs = s.regs := rfl
@[simp] theorem rasmStart_status (s : State) :
    (rasmStart s).status = s.status := rfl
@[simp] theorem rasmStart_res (s : State) :
    (rasmStart s).res = s.res := rfl
@[simp] theorem rasmStart_rxLen (s : State) :
    (rasmStart s).rxLen = s.rxLen := rfl
@[simp] theorem rasmStart_fout (s : State) :
    (rasmStart s).fout = s.fout := rfl
@[simp] theorem rasmStart_mem (s : State) :
    (rasmStart s).mem = s.mem := rfl
@[simp] theorem rasmStart_ctl (s : State) :
    (rasmStart s).ctl = .respWait := rfl
@[simp] theorem rasmStart_op (s : State) :
    (rasmStart s).op = s.op := rfl
@[simp] theorem rasmStart_tx (s : State) :
    (rasmStart s).tx = s.tx := rfl
@[simp] theorem rasmStart_rasm (s : State) :
    (rasmStart s).rasm = s.rasm := rfl
@[simp] theorem rasmStart_timer (s : State) :
    (rasmStart s).timer = { s.timer with tmr := 0, lim := s.timer.respLim } := rfl
@[simp] theorem rasmStart_port (s : State) :
    (rasmStart s).port = s.port := rfl
@[simp] theorem rasmStart_didCur (s : State) :
    (rasmStart s).didCur = s.didCur := rfl
@[simp] theorem rasmStart_env (s : State) :
    (rasmStart s).env = s.env := rfl
@[simp] theorem rasmStart_draws (s : State) :
    (rasmStart s).draws = s.draws := rfl

/-! ### ackStart -/

@[simp] theorem ackStart_regs (s : State) :
    (ackStart s).regs = s.regs := rfl
@[simp] theorem ackStart_status (s : State) :
    (ackStart s).status = s.status := rfl
@[simp] theorem ackStart_res (s : State) :
    (ackStart s).res = s.res := rfl
@[simp] theorem ackStart_rxLen (s : State) :
    (ackStart s).rxLen = s.rxLen := rfl
@[simp] theorem ackStart_fout (s : State) :
    (ackStart s).fout = s.fout := rfl
@[simp] theorem ackStart_mem (s : State) :
    (ackStart s).mem = s.mem := rfl
@[simp] theorem ackStart_ctl (s : State) :
    (ackStart s).ctl = .ackWait := rfl
@[simp] theorem ackStart_op (s : State) :
    (ackStart s).op = s.op := rfl
@[simp] theorem ackStart_tx (s : State) :
    (ackStart s).tx = s.tx := rfl
@[simp] theorem ackStart_rasm (s : State) :
    (ackStart s).rasm = s.rasm := rfl
@[simp] theorem ackStart_timer (s : State) :
    (ackStart s).timer = { s.timer with tmr := 0, lim := s.timer.respLim } := rfl
@[simp] theorem ackStart_port (s : State) :
    (ackStart s).port = s.port := rfl
@[simp] theorem ackStart_didCur (s : State) :
    (ackStart s).didCur = s.didCur := rfl
@[simp] theorem ackStart_env (s : State) :
    (ackStart s).env = s.env := rfl
@[simp] theorem ackStart_draws (s : State) :
    (ackStart s).draws = s.draws := rfl

/-! ### rasmTaken -/

@[simp] theorem rasmTaken_regs (s : State) :
    (rasmTaken s).regs = s.regs := rfl
@[simp] theorem rasmTaken_status (s : State) :
    (rasmTaken s).status = s.status := rfl
@[simp] theorem rasmTaken_res (s : State) :
    (rasmTaken s).res = s.res := rfl
@[simp] theorem rasmTaken_rxLen (s : State) :
    (rasmTaken s).rxLen = s.rasm.len := rfl
@[simp] theorem rasmTaken_fout (s : State) :
    (rasmTaken s).fout = s.fout := rfl
@[simp] theorem rasmTaken_mem (s : State) :
    (rasmTaken s).mem = memDrop s.mem (rxBase + s.rasm.len.toNat) outBase := rfl
@[simp] theorem rasmTaken_ctl (s : State) :
    (rasmTaken s).ctl = s.ctl := rfl
@[simp] theorem rasmTaken_op (s : State) :
    (rasmTaken s).op = s.op := rfl
@[simp] theorem rasmTaken_tx (s : State) :
    (rasmTaken s).tx = s.tx := rfl
@[simp] theorem rasmTaken_rasm (s : State) :
    (rasmTaken s).rasm = { s.rasm with phase := .complete } := rfl
@[simp] theorem rasmTaken_timer (s : State) :
    (rasmTaken s).timer = s.timer := rfl
@[simp] theorem rasmTaken_port (s : State) :
    (rasmTaken s).port = s.port := rfl
@[simp] theorem rasmTaken_didCur (s : State) :
    (rasmTaken s).didCur = s.didCur := rfl
@[simp] theorem rasmTaken_env (s : State) :
    (rasmTaken s).env = s.env := rfl
@[simp] theorem rasmTaken_draws (s : State) :
    (rasmTaken s).draws = { s.draws with rxbuf := s.draws.rxbuf + 1 } := rfl

/-! ### takePayload -/

@[simp] theorem takePayload_regs (p : List Byte) (s : State) :
    (takePayload p s).regs = s.regs := rfl
@[simp] theorem takePayload_status (p : List Byte) (s : State) :
    (takePayload p s).status = s.status := rfl
@[simp] theorem takePayload_res (p : List Byte) (s : State) :
    (takePayload p s).res = s.res := rfl
@[simp] theorem takePayload_rxLen (p : List Byte) (s : State) :
    (takePayload p s).rxLen = s.rxLen := rfl
@[simp] theorem takePayload_fout (p : List Byte) (s : State) :
    (takePayload p s).fout = s.fout := rfl
@[simp] theorem takePayload_mem (p : List Byte) (s : State) :
    (takePayload p s).mem = memStoreBytes s.mem (rxBase + 0) p := rfl
@[simp] theorem takePayload_ctl (p : List Byte) (s : State) :
    (takePayload p s).ctl = s.ctl := rfl
@[simp] theorem takePayload_op (p : List Byte) (s : State) :
    (takePayload p s).op = s.op := rfl
@[simp] theorem takePayload_tx (p : List Byte) (s : State) :
    (takePayload p s).tx = s.tx := rfl
@[simp] theorem takePayload_rasm (p : List Byte) (s : State) :
    (takePayload p s).rasm = { s.rasm with len := BitVec.ofNat 12 p.length } := rfl
@[simp] theorem takePayload_timer (p : List Byte) (s : State) :
    (takePayload p s).timer = s.timer := rfl
@[simp] theorem takePayload_port (p : List Byte) (s : State) :
    (takePayload p s).port = s.port := rfl
@[simp] theorem takePayload_didCur (p : List Byte) (s : State) :
    (takePayload p s).didCur = s.didCur := rfl
@[simp] theorem takePayload_env (p : List Byte) (s : State) :
    (takePayload p s).env = s.env := rfl
@[simp] theorem takePayload_draws (p : List Byte) (s : State) :
    (takePayload p s).draws = s.draws := rfl

/-! ### rasmFail -/

@[simp] theorem rasmFail_regs (e : CmdError) (s : State) :
    (rasmFail e s).regs = s.regs := rfl
@[simp] theorem rasmFail_status (e : CmdError) (s : State) :
    (rasmFail e s).status = { s.status with err := true, errcode := errorCode e, errDetail := errorDetail e, done := true } := rfl
@[simp] theorem rasmFail_res (e : CmdError) (s : State) :
    (rasmFail e s).res = s.res := rfl
@[simp] theorem rasmFail_rxLen (e : CmdError) (s : State) :
    (rasmFail e s).rxLen = s.rxLen := rfl
@[simp] theorem rasmFail_fout (e : CmdError) (s : State) :
    (rasmFail e s).fout = s.fout := rfl
@[simp] theorem rasmFail_mem (e : CmdError) (s : State) :
    (rasmFail e s).mem = memDrop s.mem (rxBase + s.rasm.len.toNat) outBase := rfl
@[simp] theorem rasmFail_ctl (e : CmdError) (s : State) :
    (rasmFail e s).ctl = .idle := rfl
@[simp] theorem rasmFail_op (e : CmdError) (s : State) :
    (rasmFail e s).op = s.op := rfl
@[simp] theorem rasmFail_tx (e : CmdError) (s : State) :
    (rasmFail e s).tx = s.tx := rfl
@[simp] theorem rasmFail_rasm (e : CmdError) (s : State) :
    (rasmFail e s).rasm = { s.rasm with phase := .failed, why := errorCode e } := rfl
@[simp] theorem rasmFail_timer (e : CmdError) (s : State) :
    (rasmFail e s).timer = { s.timer with tmr := 0, lim := 0 } := rfl
@[simp] theorem rasmFail_port (e : CmdError) (s : State) :
    (rasmFail e s).port = { s.port with valid := false } := rfl
@[simp] theorem rasmFail_didCur (e : CmdError) (s : State) :
    (rasmFail e s).didCur = s.didCur := rfl
@[simp] theorem rasmFail_env (e : CmdError) (s : State) :
    (rasmFail e s).env = s.env := rfl
@[simp] theorem rasmFail_draws (e : CmdError) (s : State) :
    (rasmFail e s).draws = { s.draws with rxbuf := s.draws.rxbuf + 1 } := rfl

/-! ### enterFcWait -/

@[simp] theorem enterFcWait_regs (s : State) :
    (enterFcWait s).regs = s.regs := rfl
@[simp] theorem enterFcWait_status (s : State) :
    (enterFcWait s).status = s.status := rfl
@[simp] theorem enterFcWait_res (s : State) :
    (enterFcWait s).res = s.res := rfl
@[simp] theorem enterFcWait_rxLen (s : State) :
    (enterFcWait s).rxLen = s.rxLen := rfl
@[simp] theorem enterFcWait_fout (s : State) :
    (enterFcWait s).fout = s.fout := rfl
@[simp] theorem enterFcWait_mem (s : State) :
    (enterFcWait s).mem = s.mem := rfl
@[simp] theorem enterFcWait_ctl (s : State) :
    (enterFcWait s).ctl = .fcWait := rfl
@[simp] theorem enterFcWait_op (s : State) :
    (enterFcWait s).op = s.op := rfl
@[simp] theorem enterFcWait_tx (s : State) :
    (enterFcWait s).tx = { s.tx with nFcWaits := s.tx.nFcWaits + 1 } := rfl
@[simp] theorem enterFcWait_rasm (s : State) :
    (enterFcWait s).rasm = s.rasm := rfl
@[simp] theorem enterFcWait_timer (s : State) :
    (enterFcWait s).timer = { s.timer with tmr := 0, lim := sat32 (s.regs.fcTimeout.toNat * s.regs.tuUs.toNat) } := rfl
@[simp] theorem enterFcWait_port (s : State) :
    (enterFcWait s).port = s.port := rfl
@[simp] theorem enterFcWait_didCur (s : State) :
    (enterFcWait s).didCur = s.didCur := rfl
@[simp] theorem enterFcWait_env (s : State) :
    (enterFcWait s).env = s.env := rfl
@[simp] theorem enterFcWait_draws (s : State) :
    (enterFcWait s).draws = s.draws := rfl

/-! ### sendCf -/

@[simp] theorem sendCf_regs (s : State) :
    (sendCf s).regs = s.regs := rfl
@[simp] theorem sendCf_status (s : State) :
    (sendCf s).status = s.status := rfl
@[simp] theorem sendCf_res (s : State) :
    (sendCf s).res = s.res := rfl
@[simp] theorem sendCf_rxLen (s : State) :
    (sendCf s).rxLen = s.rxLen := rfl
@[simp] theorem sendCf_fout (s : State) :
    (sendCf s).fout = s.fout := rfl
@[simp] theorem sendCf_mem (s : State) :
    (sendCf s).mem = s.mem := rfl
@[simp] theorem sendCf_ctl (s : State) :
    (sendCf s).ctl = .txCf := rfl
@[simp] theorem sendCf_op (s : State) :
    (sendCf s).op = s.op := rfl
@[simp] theorem sendCf_tx (s : State) :
    (sendCf s).tx = { s.tx with pos := BitVec.ofNat 12 (s.tx.pos.toNat + cfCount s) } := rfl
@[simp] theorem sendCf_rasm (s : State) :
    (sendCf s).rasm = s.rasm := rfl
@[simp] theorem sendCf_timer (s : State) :
    (sendCf s).timer = s.timer := rfl
@[simp] theorem sendCf_didCur (s : State) :
    (sendCf s).didCur = s.didCur := rfl
@[simp] theorem sendCf_env (s : State) :
    (sendCf s).env = s.env := rfl
@[simp] theorem sendCf_draws (s : State) :
    (sendCf s).draws = s.draws := rfl

/-! ### stWaitStart -/

@[simp] theorem stWaitStart_regs (s : State) :
    (stWaitStart s).regs = s.regs := rfl
@[simp] theorem stWaitStart_status (s : State) :
    (stWaitStart s).status = s.status := rfl
@[simp] theorem stWaitStart_res (s : State) :
    (stWaitStart s).res = s.res := rfl
@[simp] theorem stWaitStart_rxLen (s : State) :
    (stWaitStart s).rxLen = s.rxLen := rfl
@[simp] theorem stWaitStart_fout (s : State) :
    (stWaitStart s).fout = s.fout := rfl
@[simp] theorem stWaitStart_mem (s : State) :
    (stWaitStart s).mem = s.mem := rfl
@[simp] theorem stWaitStart_ctl (s : State) :
    (stWaitStart s).ctl = .stWait := rfl
@[simp] theorem stWaitStart_op (s : State) :
    (stWaitStart s).op = s.op := rfl
@[simp] theorem stWaitStart_tx (s : State) :
    (stWaitStart s).tx = s.tx := rfl
@[simp] theorem stWaitStart_rasm (s : State) :
    (stWaitStart s).rasm = s.rasm := rfl
@[simp] theorem stWaitStart_timer (s : State) :
    (stWaitStart s).timer = { s.timer with tmr := 0, lim := s.tx.stUs } := rfl
@[simp] theorem stWaitStart_port (s : State) :
    (stWaitStart s).port = s.port := rfl
@[simp] theorem stWaitStart_didCur (s : State) :
    (stWaitStart s).didCur = s.didCur := rfl
@[simp] theorem stWaitStart_env (s : State) :
    (stWaitStart s).env = s.env := rfl
@[simp] theorem stWaitStart_draws (s : State) :
    (stWaitStart s).draws = s.draws := rfl

/-! ### rxFcAcked -/

@[simp] theorem rxFcAcked_regs (s : State) :
    (rxFcAcked s).regs = s.regs := rfl
@[simp] theorem rxFcAcked_status (s : State) :
    (rxFcAcked s).status = s.status := rfl
@[simp] theorem rxFcAcked_res (s : State) :
    (rxFcAcked s).res = s.res := rfl
@[simp] theorem rxFcAcked_rxLen (s : State) :
    (rxFcAcked s).rxLen = s.rxLen := rfl
@[simp] theorem rxFcAcked_fout (s : State) :
    (rxFcAcked s).fout = s.fout := rfl
@[simp] theorem rxFcAcked_mem (s : State) :
    (rxFcAcked s).mem = s.mem := rfl
@[simp] theorem rxFcAcked_ctl (s : State) :
    (rxFcAcked s).ctl = .respWait := rfl
@[simp] theorem rxFcAcked_op (s : State) :
    (rxFcAcked s).op = s.op := rfl
@[simp] theorem rxFcAcked_tx (s : State) :
    (rxFcAcked s).tx = s.tx := rfl
@[simp] theorem rxFcAcked_rasm (s : State) :
    (rxFcAcked s).rasm = s.rasm := rfl
@[simp] theorem rxFcAcked_timer (s : State) :
    (rxFcAcked s).timer = s.timer := rfl
@[simp] theorem rxFcAcked_port (s : State) :
    (rxFcAcked s).port = s.port := rfl
@[simp] theorem rxFcAcked_didCur (s : State) :
    (rxFcAcked s).didCur = s.didCur := rfl
@[simp] theorem rxFcAcked_env (s : State) :
    (rxFcAcked s).env = s.env := rfl
@[simp] theorem rxFcAcked_draws (s : State) :
    (rxFcAcked s).draws = s.draws := rfl

/-! ### portTaken -/

@[simp] theorem portTaken_regs (s : State) :
    (portTaken s).regs = s.regs := rfl
@[simp] theorem portTaken_status (s : State) :
    (portTaken s).status = s.status := rfl
@[simp] theorem portTaken_res (s : State) :
    (portTaken s).res = s.res := rfl
@[simp] theorem portTaken_rxLen (s : State) :
    (portTaken s).rxLen = s.rxLen := rfl
@[simp] theorem portTaken_fout (s : State) :
    (portTaken s).fout = s.fout := rfl
@[simp] theorem portTaken_mem (s : State) :
    (portTaken s).mem = s.mem := rfl
@[simp] theorem portTaken_ctl (s : State) :
    (portTaken s).ctl = s.ctl := rfl
@[simp] theorem portTaken_op (s : State) :
    (portTaken s).op = s.op := rfl
@[simp] theorem portTaken_tx (s : State) :
    (portTaken s).tx = s.tx := rfl
@[simp] theorem portTaken_rasm (s : State) :
    (portTaken s).rasm = s.rasm := rfl
@[simp] theorem portTaken_timer (s : State) :
    (portTaken s).timer = s.timer := rfl
@[simp] theorem portTaken_port (s : State) :
    (portTaken s).port = { s.port with valid := false } := rfl
@[simp] theorem portTaken_didCur (s : State) :
    (portTaken s).didCur = s.didCur := rfl
@[simp] theorem portTaken_env (s : State) :
    (portTaken s).env = s.env := rfl
@[simp] theorem portTaken_draws (s : State) :
    (portTaken s).draws = s.draws := rfl

/-! ### countCf -/

@[simp] theorem countCf_regs (s : State) :
    (countCf s).regs = s.regs := rfl
@[simp] theorem countCf_status (s : State) :
    (countCf s).status = s.status := rfl
@[simp] theorem countCf_res (s : State) :
    (countCf s).res = s.res := rfl
@[simp] theorem countCf_rxLen (s : State) :
    (countCf s).rxLen = s.rxLen := rfl
@[simp] theorem countCf_fout (s : State) :
    (countCf s).fout = s.fout := rfl
@[simp] theorem countCf_mem (s : State) :
    (countCf s).mem = s.mem := rfl
@[simp] theorem countCf_ctl (s : State) :
    (countCf s).ctl = s.ctl := rfl
@[simp] theorem countCf_op (s : State) :
    (countCf s).op = s.op := rfl
@[simp] theorem countCf_tx (s : State) :
    (countCf s).tx = { s.tx with
      nFrames := s.tx.nFrames + 1
      seq := s.tx.seq + 1
      bsCnt := if s.tx.bs ≠ 0 then s.tx.bsCnt + 1 else s.tx.bsCnt } := rfl
@[simp] theorem countCf_rasm (s : State) :
    (countCf s).rasm = s.rasm := rfl
@[simp] theorem countCf_timer (s : State) :
    (countCf s).timer = s.timer := rfl
@[simp] theorem countCf_port (s : State) :
    (countCf s).port = s.port := rfl
@[simp] theorem countCf_didCur (s : State) :
    (countCf s).didCur = s.didCur := rfl
@[simp] theorem countCf_env (s : State) :
    (countCf s).env = s.env := rfl
@[simp] theorem countCf_draws (s : State) :
    (countCf s).draws = s.draws := rfl

/-! ### startAccumulating -/

@[simp] theorem startAccumulating_regs (total : BitVec 12) (six : List Byte) (s : State) :
    (startAccumulating total six s).regs = s.regs := rfl
@[simp] theorem startAccumulating_status (total : BitVec 12) (six : List Byte) (s : State) :
    (startAccumulating total six s).status = s.status := rfl
@[simp] theorem startAccumulating_res (total : BitVec 12) (six : List Byte) (s : State) :
    (startAccumulating total six s).res = s.res := rfl
@[simp] theorem startAccumulating_rxLen (total : BitVec 12) (six : List Byte) (s : State) :
    (startAccumulating total six s).rxLen = s.rxLen := rfl
@[simp] theorem startAccumulating_fout (total : BitVec 12) (six : List Byte) (s : State) :
    (startAccumulating total six s).fout = s.fout := rfl
@[simp] theorem startAccumulating_mem (total : BitVec 12) (six : List Byte) (s : State) :
    (startAccumulating total six s).mem = memStoreBytes s.mem (rxBase + 0) six := rfl
@[simp] theorem startAccumulating_ctl (total : BitVec 12) (six : List Byte) (s : State) :
    (startAccumulating total six s).ctl = s.ctl := rfl
@[simp] theorem startAccumulating_op (total : BitVec 12) (six : List Byte) (s : State) :
    (startAccumulating total six s).op = s.op := rfl
@[simp] theorem startAccumulating_tx (total : BitVec 12) (six : List Byte) (s : State) :
    (startAccumulating total six s).tx = s.tx := rfl
@[simp] theorem startAccumulating_rasm (total : BitVec 12) (six : List Byte) (s : State) :
    (startAccumulating total six s).rasm = { s.rasm with phase := .accumulating, len := 6, exp := total, seq := 1, mf := true } := rfl
@[simp] theorem startAccumulating_timer (total : BitVec 12) (six : List Byte) (s : State) :
    (startAccumulating total six s).timer = s.timer := rfl
@[simp] theorem startAccumulating_port (total : BitVec 12) (six : List Byte) (s : State) :
    (startAccumulating total six s).port = s.port := rfl
@[simp] theorem startAccumulating_didCur (total : BitVec 12) (six : List Byte) (s : State) :
    (startAccumulating total six s).didCur = s.didCur := rfl
@[simp] theorem startAccumulating_env (total : BitVec 12) (six : List Byte) (s : State) :
    (startAccumulating total six s).env = s.env := rfl
@[simp] theorem startAccumulating_draws (total : BitVec 12) (six : List Byte) (s : State) :
    (startAccumulating total six s).draws = s.draws := rfl

/-! ### appendCf -/

@[simp] theorem appendCf_regs (data : List Byte) (s : State) :
    (appendCf data s).regs = s.regs := rfl
@[simp] theorem appendCf_status (data : List Byte) (s : State) :
    (appendCf data s).status = s.status := rfl
@[simp] theorem appendCf_res (data : List Byte) (s : State) :
    (appendCf data s).res = s.res := rfl
@[simp] theorem appendCf_rxLen (data : List Byte) (s : State) :
    (appendCf data s).rxLen = s.rxLen := rfl
@[simp] theorem appendCf_fout (data : List Byte) (s : State) :
    (appendCf data s).fout = s.fout := rfl
@[simp] theorem appendCf_mem (data : List Byte) (s : State) :
    (appendCf data s).mem = memStoreBytes s.mem (rxBase + s.rasm.len.toNat) (lacking data s) := rfl
@[simp] theorem appendCf_ctl (data : List Byte) (s : State) :
    (appendCf data s).ctl = s.ctl := rfl
@[simp] theorem appendCf_op (data : List Byte) (s : State) :
    (appendCf data s).op = s.op := rfl
@[simp] theorem appendCf_tx (data : List Byte) (s : State) :
    (appendCf data s).tx = s.tx := rfl
@[simp] theorem appendCf_rasm (data : List Byte) (s : State) :
    (appendCf data s).rasm = { s.rasm with
      len := BitVec.ofNat 12 (s.rasm.len.toNat + (lacking data s).length)
      seq := s.rasm.seq + 1 } := rfl
@[simp] theorem appendCf_timer (data : List Byte) (s : State) :
    (appendCf data s).timer = s.timer := rfl
@[simp] theorem appendCf_port (data : List Byte) (s : State) :
    (appendCf data s).port = s.port := rfl
@[simp] theorem appendCf_didCur (data : List Byte) (s : State) :
    (appendCf data s).didCur = s.didCur := rfl
@[simp] theorem appendCf_env (data : List Byte) (s : State) :
    (appendCf data s).env = s.env := rfl
@[simp] theorem appendCf_draws (data : List Byte) (s : State) :
    (appendCf data s).draws = s.draws := rfl

end Sys2Proof.Machine
end

