-- ==== Sys2Proof/Laws/Memory.lean ====
section
/-! SUPPORT. The laws of the buffers: reading after a store, what a store leaves alone, and that every memory operation
keeps the canonical form. -/

namespace Sys2Proof.Machine

/-! ### The list of cells -/

theorem memGet_memPut_same (m : List Host.Cell) (k : Nat) (v : Byte) : memGet (memPut m k v) k = some v := by
  induction m with
  | nil => simp [memPut, memGet]
  | cons c m ih =>
    obtain ⟨a, w⟩ := c
    unfold memPut
    split
    · simp [memGet]
    · split
      · simp [memGet]
      · next h => simp [memGet, ih, Ne.symm h]

theorem memGet_memPut_other (m : List Host.Cell) {k j : Nat} (v : Byte) (h : j ≠ k) :
    memGet (memPut m k v) j = memGet m j := by
  induction m with
  | nil => simp [memPut, memGet, Ne.symm h]
  | cons c m ih =>
    obtain ⟨a, w⟩ := c
    unfold memPut
    split
    · simp [memGet, Ne.symm h]
    · split
      · next h1 h2 => subst h2; simp [memGet, Ne.symm h]
      · simp [memGet, ih]

theorem memGet_memDrop (m : List Host.Cell) (lo hi j : Nat) :
    memGet (memDrop m lo hi) j = if lo ≤ j ∧ j < hi then none else memGet m j := by
  induction m with
  | nil => simp [memDrop, memGet]
  | cons c m ih =>
    obtain ⟨a, w⟩ := c
    have ih' : memGet (List.filter (fun c => decide (c.1 < lo) || decide (hi ≤ c.1)) m) j = _ := ih
    by_cases hk : (decide (a < lo) || decide (hi ≤ a)) = true
    · simp only [memDrop, List.filter_cons, hk, if_true, memGet, ih']
      by_cases haj : a = j
      · subst haj
        have : ¬ (lo ≤ a ∧ a < hi) := by simp at hk; omega
        simp [this]
      · simp [haj]
    · simp only [memDrop, List.filter_cons, hk, memGet, ih', if_false, Bool.false_eq_true]
      by_cases haj : a = j
      · subst haj
        have : lo ≤ a ∧ a < hi := by simp at hk; omega
        simp [this]
      · simp [haj]

/-- What a stored byte reads as: a 0 in OUTBUF is unlisted, every other byte is listed. -/
theorem memGet_memStore_same (m : List Host.Cell) (k : Nat) (v : Byte) :
    memGet (memStore m k v) k = if inOutbuf k && v == 0 then none else some v := by
  unfold memStore
  split
  · simp [memGet_memDrop]
  · exact memGet_memPut_same m k v

theorem memGet_memStore_other (m : List Host.Cell) {k j : Nat} (v : Byte) (h : j ≠ k) :
    memGet (memStore m k v) j = memGet m j := by
  unfold memStore
  split
  · rw [memGet_memDrop, if_neg (by omega)]
  · exact memGet_memPut_other m v h

theorem memGet_memStoreBytes_outside (m : List Host.Cell) (k : Nat) (bs : List Byte) (j : Nat)
    (h : ¬ (k ≤ j ∧ j < k + bs.length)) : memGet (memStoreBytes m k bs) j = memGet m j := by
  induction bs generalizing m k with
  | nil => rfl
  | cons b bs ih =>
    have h1 : j ≠ k := by simp at h; omega
    have h2 : ¬ (k + 1 ≤ j ∧ j < k + 1 + bs.length) := by simp at h; omega
    simp only [memStoreBytes, ih _ _ h2, memGet_memStore_other m b h1]

theorem memGet_memStoreBytes_inside (m : List Host.Cell) (k : Nat) (bs : List Byte) (j : Nat)
    (h1 : k ≤ j) (h2 : j < k + bs.length) :
    memGet (memStoreBytes m k bs) j =
      if inOutbuf j && bs.getD (j - k) 0 == 0 then none else some (bs.getD (j - k) 0) := by
  induction bs generalizing m k with
  | nil => simp at h2; omega
  | cons b bs ih =>
    by_cases hj : j = k
    · subst hj
      have : ¬ (j + 1 ≤ j ∧ j < j + 1 + bs.length) := by omega
      rw [memStoreBytes, memGet_memStoreBytes_outside _ _ _ _ this, memGet_memStore_same]
      simp
    · have h3 : k + 1 ≤ j := by omega
      have h4 : j < k + 1 + bs.length := by simp at h2; omega
      rw [memStoreBytes, ih _ _ h3 h4]
      have : j - k = (j - (k + 1)) + 1 := by omega
      simp [this]

/-! ### Bytes of the state -/

theorem unlistedByte_outbuf (d : Draws) {a : Nat} (h : inOutbuf a = true) : unlistedByte d a = 0 := by
  simp [inOutbuf, outBase, outEnd] at h
  have h1 : ¬ (txBase ≤ a ∧ a < rxBase) := by simp [txBase, rxBase]; omega
  have h2 : ¬ (rxBase ≤ a ∧ a < outBase) := by simp [rxBase, outBase]; omega
  simp [unlistedByte, h1, h2]

/-- A byte of a state whose listed bytes and draws are another's. -/
theorem byteAt_congr {s t : State} (hm : t.mem = s.mem) (hd : t.draws = s.draws) (a : Nat) :
    byteAt t a = byteAt s a := by simp [byteAt, hm, hd]

/-- Read after write: inside the stored range, the stored byte; outside it, what was there. -/
theorem byteAt_storeAt (s : State) (k : Nat) (bs : List Byte) (a : Nat) :
    byteAt (storeAt s k bs) a = if k ≤ a ∧ a < k + bs.length then bs.getD (a - k) 0 else byteAt s a := by
  by_cases h : k ≤ a ∧ a < k + bs.length
  · simp only [byteAt, storeAt_mem, storeAt_draws, memGet_memStoreBytes_inside _ _ _ _ h.1 h.2, h, and_self, if_true]
    by_cases h0 : (inOutbuf a && bs.getD (a - k) 0 == 0) = true
    · have h0' := h0
      simp only [Bool.and_eq_true, beq_iff_eq] at h0'
      simp only [h0, if_true, unlistedByte_outbuf s.draws h0'.1]
      exact h0'.2.symm
    · simp only [h0, Bool.false_eq_true, if_false]
  · simp only [byteAt, storeAt_mem, storeAt_draws, memGet_memStoreBytes_outside _ _ _ _ h, h, if_false]

theorem byteAt_storeTx (s : State) (k : Nat) (bs : List Byte) (a : Nat) :
    byteAt (storeTx s k bs) a =
      if txBase + k ≤ a ∧ a < txBase + k + bs.length then bs.getD (a - (txBase + k)) 0 else byteAt s a :=
  byteAt_storeAt s _ bs a

theorem byteAt_storeRx (s : State) (k : Nat) (bs : List Byte) (a : Nat) :
    byteAt (storeRx s k bs) a =
      if rxBase + k ≤ a ∧ a < rxBase + k + bs.length then bs.getD (a - (rxBase + k)) 0 else byteAt s a :=
  byteAt_storeAt s _ bs a

theorem byteAt_storeOut (s : State) (k : Nat) (bs : List Byte) (a : Nat) :
    byteAt (storeOut s k bs) a =
      if outBase + k ≤ a ∧ a < outBase + k + bs.length then bs.getD (a - (outBase + k)) 0 else byteAt s a :=
  byteAt_storeAt s _ bs a

/-- OUTBUF reads 0 after it is zeroed, and no other byte changes. -/
theorem byteAt_zeroOut (s : State) (a : Nat) :
    byteAt (zeroOut s) a = if outBase ≤ a ∧ a < outEnd then 0 else byteAt s a := by
  by_cases h : outBase ≤ a ∧ a < outEnd
  · have : inOutbuf a = true := by simp [inOutbuf]; exact h
    simp [byteAt, memGet_memDrop, h, unlistedByte_outbuf _ this]
  · simp [byteAt, memGet_memDrop, h]

/-- Forgetting the end of RXBUF changes no byte outside RXBUF. -/
theorem byteAt_forgetRx_outside (s : State) (n a : Nat) (h : a < rxBase ∨ outBase ≤ a) :
    byteAt (forgetRx s n) a = byteAt s a := by
  have h1 : ¬ (rxBase + n ≤ a ∧ a < outBase) := by omega
  have h2 : ¬ (rxBase ≤ a ∧ a < outBase) := by omega
  have h3 : unlistedByte (forgetRx s n).draws a = unlistedByte s.draws a := by
    simp [unlistedByte, h2]
  simp only [byteAt, forgetRx_mem, memGet_memDrop, h1, if_false, h3]

/-- Forgetting the end of RXBUF keeps every listed byte below it. -/
theorem byteAt_forgetRx_listed (s : State) (n a : Nat) (v : Byte) (h : memGet s.mem a = some v) (ha : a < rxBase + n) :
    byteAt (forgetRx s n) a = v := by
  have h1 : ¬ (rxBase + n ≤ a ∧ a < outBase) := by omega
  simp [byteAt, memGet_memDrop, h1, h]

/-! ### The canonical form -/

theorem risingFrom_mono {lo lo' : Nat} (h : lo' ≤ lo) {m : List Host.Cell} (hm : risingFrom lo m = true) :
    risingFrom lo' m = true := by
  cases m with
  | nil => rfl
  | cons c m =>
    obtain ⟨a, w⟩ := c
    simp only [risingFrom, Bool.and_eq_true, decide_eq_true_eq] at hm ⊢
    exact ⟨by omega, hm.2⟩

theorem risingFrom_memPut {lo k : Nat} (v : Byte) {m : List Host.Cell} (hm : risingFrom lo m = true) (hk : lo ≤ k) :
    risingFrom lo (memPut m k v) = true := by
  induction m generalizing lo with
  | nil => simp [memPut, risingFrom, hk]
  | cons c m ih =>
    obtain ⟨a, w⟩ := c
    simp only [risingFrom, Bool.and_eq_true, decide_eq_true_eq] at hm
    unfold memPut
    split
    · simp only [risingFrom, Bool.and_eq_true, decide_eq_true_eq]
      exact ⟨hk, by omega, hm.2⟩
    · split
      · next h => subst h; simp only [risingFrom, Bool.and_eq_true, decide_eq_true_eq]; exact ⟨hk, hm.2⟩
      · simp only [risingFrom, Bool.and_eq_true, decide_eq_true_eq]
        exact ⟨hm.1, ih hm.2 (by omega)⟩

theorem risingFrom_memDrop {lo : Nat} (l h : Nat) {m : List Host.Cell} (hm : risingFrom lo m = true) :
    risingFrom lo (memDrop m l h) = true := by
  induction m generalizing lo with
  | nil => rfl
  | cons c m ih =>
    obtain ⟨a, w⟩ := c
    simp only [risingFrom, Bool.and_eq_true, decide_eq_true_eq] at hm
    have ih' : risingFrom (a + 1) (List.filter (fun c => decide (c.1 < l) || decide (h ≤ c.1)) m) = true := ih hm.2
    by_cases hk : (decide (a < l) || decide (h ≤ a)) = true
    · simp only [memDrop, List.filter_cons, hk, if_true, risingFrom, ih', Bool.and_true, decide_eq_true_eq]
      exact hm.1
    · simp only [memDrop, List.filter_cons, hk, if_false, Bool.false_eq_true]
      exact risingFrom_mono (by omega) ih'

theorem mem_memPut {m : List Host.Cell} {k : Nat} {v : Byte} {c : Host.Cell} (h : c ∈ memPut m k v) :
    c = (k, v) ∨ c ∈ m := by
  induction m with
  | nil => simp [memPut] at h; exact .inl h
  | cons d m ih =>
    obtain ⟨a, w⟩ := d
    unfold memPut at h
    split at h
    · simpa using h
    · split at h
      · simp only [List.mem_cons] at h ⊢
        rcases h with h | h
        · exact .inl h
        · exact .inr (.inr h)
      · simp only [List.mem_cons] at h ⊢
        rcases h with h | h
        · exact .inr (.inl h)
        · rcases ih h with h | h
          · exact .inl h
          · exact .inr (.inr h)

theorem memWf_memDrop {m : List Host.Cell} (lo hi : Nat) (hm : Memory.wf m = true) :
    Memory.wf (memDrop m lo hi) = true := by
  simp only [Memory.wf, Bool.and_eq_true, List.all_eq_true] at hm ⊢
  exact ⟨risingFrom_memDrop lo hi hm.1, fun c hc => hm.2 c (List.mem_of_mem_filter hc)⟩

/-- A store keeps the canonical form. -/
theorem memWf_memStore {m : List Host.Cell} (k : Nat) (v : Byte) (hm : Memory.wf m = true) :
    Memory.wf (memStore m k v) = true := by
  unfold memStore
  split
  · exact memWf_memDrop _ _ hm
  · next h =>
    simp only [Memory.wf, Bool.and_eq_true, List.all_eq_true] at hm ⊢
    refine ⟨risingFrom_memPut v hm.1 (Nat.zero_le k), fun c hc => ?_⟩
    rcases mem_memPut hc with rfl | hc
    · simpa only [Bool.not_eq_true'] using eq_false_of_ne_true h
    · exact hm.2 c hc

theorem memWf_memStoreBytes {m : List Host.Cell} (k : Nat) (bs : List Byte) (hm : Memory.wf m = true) :
    Memory.wf (memStoreBytes m k bs) = true := by
  induction bs generalizing m k with
  | nil => exact hm
  | cons b bs ih => exact ih _ (memWf_memStore k b hm)

theorem memWf_storeAt {s : State} (k : Nat) (bs : List Byte) (h : Memory.wf s.mem = true) :
    Memory.wf (storeAt s k bs).mem = true := memWf_memStoreBytes k bs h

theorem memWf_zeroOut {s : State} (h : Memory.wf s.mem = true) : Memory.wf (zeroOut s).mem = true :=
  memWf_memDrop _ _ h

theorem memWf_forgetRx {s : State} (n : Nat) (h : Memory.wf s.mem = true) : Memory.wf (forgetRx s n).mem = true :=
  memWf_memDrop _ _ h

/-- Reset memory has the canonical form. -/
theorem memWf_reset : Memory.wf State.reset.mem = true := rfl

end Sys2Proof.Machine
end

