-- ==== Sys2Proof/Laws/Ops.lean ====
section
/-! SUPPORT. For each shared operation, once, what it can do: the lemmas later proofs cite instead of unfolding. -/

namespace Sys2Proof.Machine

/-! ### Operands -/

theorem argLen_eq (r : HostRegs) : argLen r = r.arg2.toNat % 65536 := by simp [argLen]
theorem argOff_eq (r : HostRegs) : argOff r = r.arg1.toNat % 65536 := by simp [argOff]
theorem argTotalLen_eq (r : HostRegs) : argTotalLen r = r.arg0.toNat % 65536 := by simp [argTotalLen]
theorem argSeq_eq (r : HostRegs) : argSeq r = r.arg0.toNat % 256 := by simp [argSeq]
theorem argFs_eq (r : HostRegs) : argFs r = r.arg0.toNat % 256 := by simp [argFs]
theorem argSt_toNat (r : HostRegs) : (argSt r).toNat = r.arg2.toNat % 256 := by simp [argSt]
theorem argTimeout_toNat (r : HostRegs) : (argTimeout r).toNat = r.arg3.toNat % 256 := by simp [argTimeout]

/-- The high byte of a 16-bit field at the bottom of a register. -/
theorem hi8_low16 (w : Word32) : hi8 (w.extractLsb' 0 16) = w.extractLsb' 8 8 := by
  apply BitVec.eq_of_toNat_eq
  simp [hi8, Nat.shiftRight_eq_div_pow]

/-- The low byte of a 16-bit field at the bottom of a register. -/
theorem lo8_low16 (w : Word32) : lo8 (w.extractLsb' 0 16) = w.extractLsb' 0 8 := by
  apply BitVec.eq_of_toNat_eq
  simp [lo8]

theorem pciByte_toNat (t x : BitVec 4) : (pciByte t x).toNat = t.toNat * 16 + x.toNat := by
  simp only [pciByte, BitVec.toNat_append]
  rw [Nat.shiftLeft_eq, ← Nat.shiftLeft_eq, ← Nat.shiftLeft_add_eq_or_of_lt x.isLt, Nat.shiftLeft_eq]

/-! ### The buffers -/

theorem sameBytes_of {s t : State} (hm : t.mem = s.mem) (hd : t.draws = s.draws) : sameBytes s t :=
  fun a => byteAt_congr hm hd a

theorem sameBytes_refl (s : State) : sameBytes s s := fun _ => rfl

theorem sameBytes_trans {s t u : State} (h : sameBytes s t) (h' : sameBytes t u) : sameBytes s u :=
  fun a => (h' a).trans (h a)

@[simp] theorem txBytes_length (s : State) (k n : Nat) : (txBytes s k n).length = n := by simp [txBytes]
@[simp] theorem rxBytes_length (s : State) (k n : Nat) : (rxBytes s k n).length = n := by simp [rxBytes]

theorem txBytes_getD (s : State) (k n i : Nat) (h : i < n) : (txBytes s k n).getD i 0 = txByte s (k + i) := by
  simp [txBytes, h]

theorem rxBytes_getD (s : State) (k n i : Nat) (h : i < n) : (rxBytes s k n).getD i 0 = rxByte s (k + i) := by
  simp [rxBytes, h]

theorem txBytes_congr {s t : State} (hm : t.mem = s.mem) (hd : t.draws = s.draws) (k n : Nat) :
    txBytes t k n = txBytes s k n := by
  simp only [txBytes, txByte, byteAt_congr hm hd]

theorem rxBytes_congr {s t : State} (hm : t.mem = s.mem) (hd : t.draws = s.draws) (k n : Nat) :
    rxBytes t k n = rxBytes s k n := by
  simp only [rxBytes, rxByte, byteAt_congr hm hd]

theorem txBytes_sameBytes {s t : State} (h : sameBytes s t) (k n : Nat) : txBytes t k n = txBytes s k n := by
  simp only [txBytes, txByte, h _]

theorem rxBytes_sameBytes {s t : State} (h : sameBytes s t) (k n : Nat) : rxBytes t k n = rxBytes s k n := by
  simp only [rxBytes, rxByte, h _]

/-- A listed byte of RXBUF below `n` survives `forgetRx n`, whatever the draws; every byte that a store has just listed
is one. -/
theorem memGet_storeRx {s : State} {k j : Nat} {bs : List Byte} (h1 : k ≤ j) (h2 : j < k + bs.length)
    (h3 : j < 4096) : memGet (storeRx s k bs).mem (rxBase + j) = some (bs.getD (j - k) 0) := by
  have hj : (rxBase + j) - (rxBase + k) = j - k := by omega
  have ho : inOutbuf (rxBase + j) = false := by simp [inOutbuf, rxBase, outBase]; omega
  rw [storeRx_mem, memGet_memStoreBytes_inside _ _ _ _ (by omega) (by omega), hj, ho]
  simp

theorem memGet_storeRx_outside {s : State} {k a : Nat} {bs : List Byte}
    (h : ¬ (rxBase + k ≤ a ∧ a < rxBase + k + bs.length)) : memGet (storeRx s k bs).mem a = memGet s.mem a := by
  rw [storeRx_mem, memGet_memStoreBytes_outside _ _ _ _ h]

/-! ### Acceptance (40_command_interface.md R172 to R177) -/

/-- A command accepted in IDLE with its arguments in range runs its rule. -/
theorem command_accepted {o : BitVec 8} {k : HostRegs → Bool} {b : State → State} {s : State} (h : s.ctl = .idle)
    (hk : k s.regs = true) : command o k b s = b (accept o s) := by simp [command, busy, h, hk]

/-- A command accepted in IDLE whose range check fails raises InvalidArgument. -/
theorem command_out_of_range {o : BitVec 8} {k : HostRegs → Bool} {b : State → State} {s : State}
    (h : s.ctl = .idle) (hk : k s.regs = false) :
    command o k b s = raise .invalidArgument (accept o s) := by simp [command, busy, h, hk]

/-- A command while BUSY sets CMD_REJECTED and does nothing else. -/
theorem command_busy {o : BitVec 8} {k : HostRegs → Bool} {b : State → State} {s : State} (h : s.ctl ≠ .idle) :
    command o k b s = { s with status := { s.status with cmdRejected := true } } := by simp [command, busy, h]

/-- Everything a command request can do. -/
theorem command_cases {o : BitVec 8} {k : HostRegs → Bool} {b : State → State} (s : State) :
    (s.ctl ≠ .idle ∧ command o k b s = { s with status := { s.status with cmdRejected := true } }) ∨
    (s.ctl = .idle ∧ k s.regs = true ∧ command o k b s = b (accept o s)) ∨
    (s.ctl = .idle ∧ k s.regs = false ∧ command o k b s = raise .invalidArgument (accept o s)) := by
  by_cases h : s.ctl = .idle
  · cases hk : k s.regs
    · exact .inr (.inr ⟨h, rfl, command_out_of_range h hk⟩)
    · exact .inr (.inl ⟨h, rfl, command_accepted h hk⟩)
  · exact .inl ⟨h, command_busy h⟩

theorem busStart_ready {f : State → State} {s : State} (h : s.env.busReady = true) :
    busStart f s = f (busInit s) := by simp [busStart, h]

theorem busStart_notReady {f : State → State} {s : State} (h : s.env.busReady = false) :
    busStart f s = raise (.busNotReady false) (busInit s) := by simp [busStart, h]

/-- An error in a pure command leaves everything but STATUS, the results, `op` and the timer. -/
theorem pureFailure_raise (o : BitVec 8) (s : State) (e : CmdError) :
    PureFailure o s (raise e (accept o s)) (errorCode e) (errorDetail e) :=
  ⟨⟨rfl, rfl, rfl, rfl, rfl, rfl, rfl, rfl⟩, ⟨rfl, rfl, rfl, rfl, rfl, rfl, rfl, rfl, rfl, rfl, rfl⟩, rfl, rfl,
    sameBytes_of rfl rfl⟩

/-- The result of a pure command that wrote at most FOUT and the listed bytes before it finished. -/
theorem pureSuccess_finish (o : BitVec 8) (s : State) (f : FrameRegs) (m : List Host.Cell) (k : ResKind)
    (r0 r1 r2 r3 : Word32) :
    PureSuccess o s (finish k r0 r1 r2 r3 { accept o s with fout := f, mem := m }) (resKindCode k) r0 r1 r2 r3 :=
  ⟨⟨rfl, rfl, rfl, rfl, rfl, rfl, rfl, rfl⟩, ⟨rfl, rfl, rfl, rfl, rfl, rfl, rfl, rfl, rfl, rfl, rfl⟩, rfl⟩

/-! ### The receive filter -/

theorem whenReceived_other {id : CanId} {a b c : State → Out} {s : State} (h : id ≠ s.regs.respId) :
    whenReceived id a b c s = .next s := by simp [whenReceived, h]

theorem whenReceived_fcWait {a b c : State → Out} {s : State} (h : s.ctl = .fcWait) :
    whenReceived s.regs.respId a b c s = a s := by simp [whenReceived, h]

theorem whenReceived_respWait {a b c : State → Out} {s : State} (h : s.ctl = .respWait) :
    whenReceived s.regs.respId a b c s = b s := by simp [whenReceived, h]

theorem whenReceived_ackWait {a b c : State → Out} {s : State} (h : s.ctl = .ackWait) :
    whenReceived s.regs.respId a b c s = c s := by simp [whenReceived, h]

/-- Everything a received frame can do. -/
theorem whenReceived_cases {id : CanId} {a b c : State → Out} (s : State) :
    whenReceived id a b c s = .next s ∨
    (id = s.regs.respId ∧ s.ctl = .fcWait ∧ whenReceived id a b c s = a s) ∨
    (id = s.regs.respId ∧ s.ctl = .respWait ∧ whenReceived id a b c s = b s) ∨
    (id = s.regs.respId ∧ s.ctl = .ackWait ∧ whenReceived id a b c s = c s) := by
  by_cases h : id = s.regs.respId
  · subst h
    cases hc : s.ctl <;> simp [whenReceived, hc]
  · exact .inl (whenReceived_other h)

/-! ### The end of a reassembly -/

theorem rasmComplete_tpRecv {s : State} (h : s.op = opTpRecv) :
    rasmComplete s = .next (finish .payload (s.rasm.len.setWidth 32) (bit s.rasm.mf) 0 0 (rasmTaken s)) := by
  simp [rasmComplete, h]

theorem rasmComplete_readDid {s : State} (h : s.op = opReadDid) :
    rasmComplete s = .next (readDidComplete (rasmTaken s)) := by
  simp [rasmComplete, h]

theorem rasmComplete_readDtc {s : State} (h : s.op = opReadDtc) :
    rasmComplete s = .next (readDtcComplete (rasmTaken s)) := by
  simp [rasmComplete, h]

theorem rasmComplete_cases {s t : State} (h : rasmComplete s = .next t) :
    (s.op = opTpRecv ∧
      t = finish .payload (s.rasm.len.setWidth 32) (bit s.rasm.mf) 0 0 (rasmTaken s)) ∨
    (s.op = opReadDid ∧ t = readDidComplete (rasmTaken s)) ∨
    (s.op = opReadDtc ∧ t = readDtcComplete (rasmTaken s)) := by
  unfold rasmComplete at h
  dsimp only at h
  split at h
  · next h1 => cases h; exact .inl ⟨h1, rfl⟩
  · split at h
    · next h1 => cases h; exact .inr (.inl ⟨h1, rfl⟩)
    · split at h
      · next h1 => cases h; exact .inr (.inr ⟨h1, rfl⟩)
      · cases h

/-- Everything `validate_sid` can do (44_uds_session.md R324). -/
theorem validateSid_cases (expected : Byte) (rest : State → State) (s : State) :
    (s.rxLen.toNat = 0 ∧ validateSid expected rest s = raise (.unexpectedServiceId 0 0 false true) s) ∨
    (s.rxLen.toNat ≠ 0 ∧ rxByte s 0 ≠ expected ∧ validateSid expected rest s = raise (wrongSid s) s) ∨
    (s.rxLen.toNat ≠ 0 ∧ rxByte s 0 = expected ∧ validateSid expected rest s = rest s) := by
  unfold validateSid
  split
  · next h => exact .inl ⟨h, rfl⟩
  · next h =>
    split
    · next h1 => exact .inr (.inl ⟨h, h1, rfl⟩)
    · next h1 => exact .inr (.inr ⟨h, not_not.mp h1, rfl⟩)

/-- The bytes of a payload that has just been taken into RXBUF, read after the reassembly has ended. -/
theorem rxByte_rasmTaken_takePayload (p : List Byte) (s : State) (hp : p.length ≤ 4095) {k : Nat}
    (hk : k < p.length) : rxByte (rasmTaken (takePayload p s)) k = p.getD k 0 := by
  have hl : (takePayload p s).rasm.len.toNat = p.length := by simp; omega
  have hm : memGet (takePayload p s).mem (rxBase + k) = some (p.getD k 0) := by
    have := memGet_storeRx (s := s) (k := 0) (j := k) (bs := p) (by omega) (by omega) (by omega)
    simpa using this
  exact byteAt_forgetRx_listed
    { takePayload p s with
      rasm := { (takePayload p s).rasm with phase := .complete }, rxLen := (takePayload p s).rasm.len }
    (takePayload p s).rasm.len.toNat _ _ hm (by omega)

/-! ### Words and frames in registers -/

/-- A little-endian word as a number (20_memory.md R87). -/
theorem leWord_toNat (b0 b1 b2 b3 : Byte) :
    (leWord b0 b1 b2 b3).toNat = b0.toNat + b1.toNat * 2 ^ 8 + b2.toNat * 2 ^ 16 + b3.toNat * 2 ^ 24 := by
  have h0 := b0.isLt
  have h1 := b1.isLt
  have h2 := b2.isLt
  simp only [leWord, BitVec.toNat_append]
  rw [← Nat.shiftLeft_add_eq_or_of_lt h2, ← Nat.shiftLeft_add_eq_or_of_lt h1, ← Nat.shiftLeft_add_eq_or_of_lt h0]
  simp only [Nat.shiftLeft_eq]
  omega

/-- Byte `k` of the data registers that a frame is packed into (10_state.md R53). -/
theorem dataByte_frameToRegs (f : Frame) {k : Nat} (hk : k < 8) :
    dataByte (frameToRegs f) k = (f.data.getD k 0).toNat := by
  simp only [dataByte, frameToRegs, leWord_toNat, Frame.byte]
  have b := fun j => (f.data.getD j 0).isLt
  have := b 0; have := b 1; have := b 2; have := b 3; have := b 4; have := b 5; have := b 6; have := b 7
  interval_cases k <;> simp <;> omega

/-! ### Answered frames (40_command_interface.md R180) -/

theorem txAnswered_txSf {s : State} (h : s.ctl = .txSf) : txAnswered true s = txSfAcked (portTaken s) := by
  simp only [txAnswered, h, if_true]

theorem txAnswered_txFf {s : State} (h : s.ctl = .txFf) : txAnswered true s = .next (txFfAcked (portTaken s)) := by
  simp only [txAnswered, h, if_true]

theorem txAnswered_txCf {s : State} (h : s.ctl = .txCf) : txAnswered true s = txCfAcked (portTaken s) := by
  simp only [txAnswered, h, if_true]

theorem txAnswered_rxFc {s : State} (h : s.ctl = .rxFc) : txAnswered true s = .next (rxFcAcked (portTaken s)) := by
  simp only [txAnswered, h, if_true]

theorem txAnswered_rejected (s : State) :
    txAnswered false s = .next (txRejected (portTaken s)) := rfl

/-- Everything a rejected frame can do (40_command_interface.md R180). -/
theorem txRejected_cases (s : State) :
    (s.ctl = .rxFc ∧ txRejected s = raise (.busNotReady true) (forgetRx s s.rasm.len.toNat)) ∨
    (s.ctl ≠ .rxFc ∧ txRejected s = raise (.busNotReady true) s) := by
  by_cases h : s.ctl = .rxFc
  · exact .inl ⟨h, by rw [txRejected, if_pos h]⟩
  · exact .inr ⟨h, by rw [txRejected, if_neg h]⟩

theorem memWf_txRejected {s : State} (h : Memory.wf s.mem = true) : Memory.wf (txRejected s).mem = true := by
  obtain ⟨-, e⟩ | ⟨-, e⟩ := txRejected_cases s
  · rw [e]; exact memWf_forgetRx _ h
  · rw [e]; exact h

/-- Everything a taken Consecutive Frame can do (43_transmitter.md R293). -/
theorem txCfAcked_cases (s : State) :
    (s.tx.pos = s.tx.len ∧ txCfAcked s = txDone (countCf s)) ∨
    (s.tx.pos ≠ s.tx.len ∧ (s.tx.bs ≠ 0 ∧ (countCf s).tx.bsCnt = s.tx.bs) ∧
      txCfAcked s = .next (enterFcWait (countCf s))) ∨
    (s.tx.pos ≠ s.tx.len ∧ ¬ (s.tx.bs ≠ 0 ∧ (countCf s).tx.bsCnt = s.tx.bs) ∧ s.tx.stUs = 0 ∧
      txCfAcked s = .next (sendCf (countCf s))) ∨
    (s.tx.pos ≠ s.tx.len ∧ ¬ (s.tx.bs ≠ 0 ∧ (countCf s).tx.bsCnt = s.tx.bs) ∧ s.tx.stUs ≠ 0 ∧
      txCfAcked s = .next (stWaitStart (countCf s))) := by
  unfold txCfAcked
  dsimp only
  split
  · next h => exact .inl ⟨h, rfl⟩
  · next h =>
    split
    · next h1 => exact .inr (.inl ⟨h, h1, rfl⟩)
    · next h1 =>
      split
      · next h2 => exact .inr (.inr (.inl ⟨h, h1, h2, rfl⟩))
      · next h2 => exact .inr (.inr (.inr ⟨h, h1, h2, rfl⟩))

/-- Everything the end of a transfer can do, for the commands that send (43_transmitter.md R296). -/
theorem txDone_cases {s : State} (h : isSendOp s.op = true) :
    (s.op = opTpSend ∧ txDone s = .next (finish .sent (s.tx.nFrames.setWidth 32) (s.tx.nFcWaits.setWidth 32)
      (s.tx.len.setWidth 32) 0 s)) ∨
    ((s.op = opReadDid ∨ s.op = opReadDtc) ∧ txDone s = .next (rasmStart s)) ∨
    ((s.op = opWriteDid ∨ s.op = opClearDtc) ∧ txDone s = .next (ackStart s)) := by
  unfold txDone
  split
  · next h1 => exact .inl ⟨h1, rfl⟩
  · next h1 =>
    split
    · next h2 => exact .inr (.inl ⟨h2, rfl⟩)
    · next h2 =>
      split
      · next h3 => exact .inr (.inr ⟨h3, rfl⟩)
      · next h3 =>
        exfalso
        simp only [isSendOp, Bool.or_eq_true, beq_iff_eq] at h
        tauto

/-! ### Frames to send -/

theorem pciByte_ofNat (t : BitVec 4) {n : Nat} (h : n < 16) :
    pciByte t (BitVec.ofNat 4 n) = BitVec.ofNat 8 (t.toNat * 16 + n) := by
  apply BitVec.eq_of_toNat_eq
  rw [pciByte_toNat]
  have := t.isLt
  simp
  omega

theorem payloadByte_congr {s t : State} (hb : sameBytes s t) (hh : t.tx.hdr = s.tx.hdr)
    (hl : t.tx.hdrLen = s.tx.hdrLen) (i : Nat) : payloadByte t i = payloadByte s i := by
  simp only [payloadByte, hh, hl, txByte, hb _]

theorem cfCount_le (s : State) : s.tx.pos.toNat ≤ s.tx.len.toNat → s.tx.pos.toNat + cfCount s ≤ s.tx.len.toNat := by
  unfold cfCount
  omega

/-! ### DTC records -/

/-- The groups of 4 bytes are as many as fit. -/
@[simp] theorem dtcGroups_length : ∀ d : List Byte, (dtcGroups d).length = d.length / 4
  | [] => rfl
  | [_] => by simp [dtcGroups]
  | [_, _] => by simp [dtcGroups]
  | [_, _, _] => by simp [dtcGroups]
  | _ :: _ :: _ :: _ :: rest => by
    simp only [dtcGroups, List.length_cons, dtcGroups_length rest]
    omega

/-- Record `i` is made of the bytes `4 i` to `4 i + 3`. -/
theorem dtcGroups_getElem? (d : List Byte) (i : Nat) (r : DtcRecord) (hr : (dtcGroups d)[i]? = some r) :
    r = { code := be24 (d.getD (4 * i) 0) (d.getD (4 * i + 1) 0) (d.getD (4 * i + 2) 0),
          status := d.getD (4 * i + 3) 0 } := by
  induction d using dtcGroups.induct generalizing i with
  | case1 g0 g1 g2 g3 rest ih =>
    cases i with
    | zero => simpa [dtcGroups] using hr.symm
    | succ i =>
      have h := ih i (by simpa [dtcGroups] using hr)
      simpa [Nat.mul_add] using h
  | case2 d h =>
    unfold dtcGroups at hr
    split at hr
    · exact (h _ _ _ _ _ rfl).elim
    · simp at hr

/-- `dtc_parse(D)` counts 0 records for at most one byte, else `floor((|D| - 1) / 4)` (45_payload_codecs.md R369). -/
@[simp] theorem dtcRecords_length (d : List Byte) : (dtcRecords d).length = (d.length - 1) / 4 := by
  simp [dtcRecords]

theorem be24_toNat (a b c : Byte) : (be24 a b c).toNat = a.toNat * 2 ^ 16 + b.toNat * 2 ^ 8 + c.toNat := by
  have hb := b.isLt
  have hc := c.isLt
  simp only [be24, BitVec.toNat_append]
  rw [← Nat.shiftLeft_add_eq_or_of_lt (by omega), ← Nat.shiftLeft_add_eq_or_of_lt (by omega)]
  omega

/-! ### Steps -/

/-- A step that ends in a next state has handled the next input, or there was none. -/
theorem step_cases {s t : State} (h : step s = .next t) :
    (s.env.inputs = [] ∧ t = s) ∨
    ∃ i rest, s.env.inputs = i :: rest ∧
      handleInput i { s with env := { s.env with inputs := rest } } = .next t := by
  unfold step nextInput at h
  split at h
  · next hi => exact .inl ⟨hi, by cases h; rfl⟩
  · next i rest hi => exact .inr ⟨i, rest, hi, h⟩

/-- A settled outcome is a next state only if the outcome was one. -/
theorem settle_next {o : Out} {t : State} (h : settle o = .next t) : ∃ u, o = .next u ∧ t = timeoutEval u := by
  cases o with
  | next u => exact ⟨u, rfl, by cases h; rfl⟩
  | fault r => cases h
  | refused r => cases h

end Sys2Proof.Machine
end

