-- ==== Sys2Proof/Laws/PerInstr.lean ====
section
/-! SUPPORT. The per-instruction family `TableRow`: the encoding of every instruction has the mask and the match value
that spec/opcode_table.json gives its row. -/

namespace Sys2Proof.Laws.TableRow

/-- The mask and the match value of an instruction's row of spec/opcode_table.json, on the first byte. -/
def row : Instr → Nat × Nat
  | .encSf => (0xFF, 0x01)
  | .encFf => (0xFF, 0x02)
  | .encCf => (0xFF, 0x03)
  | .encFc => (0xFF, 0x04)
  | .classify => (0xFF, 0x05)
  | .tpRecv => (0xFF, 0x10)
  | .tpSend => (0xFF, 0x11)
  | .readDid => (0xFF, 0x20)
  | .writeDid => (0xFF, 0x21)
  | .readDtc => (0xFF, 0x22)
  | .clearDtc => (0xFF, 0x23)
  | .decEcuInfo => (0xFF, 0x30)
  | .decSensor => (0xFF, 0x31)
  | .encThresholds => (0xFF, 0x32)
  | .decDtcList => (0xFF, 0x33)
  | .lutDtc => (0xFF, 0x34)
  | .lutStatus => (0xFF, 0x35)
  | .pciSf _ _ _ => (0xF0, 0x00)
  | .pciFf _ _ _ => (0xF0, 0x10)
  | .pciCf _ _ _ => (0xF0, 0x20)
  | .pciFc _ _ _ _ _ => (0xF0, 0x30)
  | .reqReadDid _ => (0xFF, 0x22)
  | .reqWriteDid _ _ => (0xFF, 0x2E)
  | .reqReadDtc _ _ => (0xFF, 0x19)
  | .reqClearDtc _ => (0xFF, 0x14)
  | .rspReadDid _ => (0xFF, 0x62)
  | .rspWriteDid _ => (0xFF, 0x6E)
  | .rspReadDtc _ => (0xFF, 0x59)
  | .rspClearDtc _ => (0xFF, 0x54)
  | .rspNegative _ => (0xFF, 0x7F)

/-- The first byte of an encoding: bits [7:0] of a command word, byte 0 of a frame or a payload. -/
def firstByte : Code → Byte
  | .command w => w.extractLsb' 0 8
  | .frame f => f.byte 0
  | .request p => p.headD 0
  | .response p => p.headD 0

/-- The first byte of an instruction's encoding, under the row's mask, is the row's match value. -/
def Statement (i : Instr) : Prop := (firstByte (encode i)).toNat &&& (row i).1 = (row i).2

/-- The first byte of a frame that carries some. -/
theorem frameOf_byte_zero (id : CanId) (b : Byte) (bs : List Byte) : (frameOf id (b :: bs)).byte 0 = b := rfl

theorem pciByte_type (t x : BitVec 4) : (pciByte t x).toNat &&& 0xF0 = t.toNat * 16 := by
  revert t x
  decide

/-- A payload whose first byte is the SID of its row. -/
theorem sidOnly {i : Instr} (sid : Byte) (h : firstByte (encode i) = sid) (hm : (row i).1 = 0xFF)
    (hr : sid.toNat = (row i).2) : Statement i := by
  have := sid.isLt
  rw [Statement, h, hm, ← hr, show 0xFF = 2 ^ 8 - 1 from rfl, Nat.and_two_pow_sub_one_eq_mod, Nat.mod_eq_of_lt this]

theorem encSf : Statement .encSf := by unfold Statement; decide
theorem encFf : Statement .encFf := by unfold Statement; decide
theorem encCf : Statement .encCf := by unfold Statement; decide
theorem encFc : Statement .encFc := by unfold Statement; decide
theorem classify : Statement .classify := by unfold Statement; decide
theorem tpRecv : Statement .tpRecv := by unfold Statement; decide
theorem tpSend : Statement .tpSend := by unfold Statement; decide
theorem readDid : Statement .readDid := by unfold Statement; decide
theorem writeDid : Statement .writeDid := by unfold Statement; decide
theorem readDtc : Statement .readDtc := by unfold Statement; decide
theorem clearDtc : Statement .clearDtc := by unfold Statement; decide
theorem decEcuInfo : Statement .decEcuInfo := by unfold Statement; decide
theorem decSensor : Statement .decSensor := by unfold Statement; decide
theorem encThresholds : Statement .encThresholds := by unfold Statement; decide
theorem decDtcList : Statement .decDtcList := by unfold Statement; decide
theorem lutDtc : Statement .lutDtc := by unfold Statement; decide
theorem lutStatus : Statement .lutStatus := by unfold Statement; decide
theorem pciSf (id : CanId) (payload padding : List Byte) : Statement (.pciSf id payload padding) :=
  pciByte_type 0 _
theorem pciFf (id : CanId) (total : BitVec 12) (six : List Byte) : Statement (.pciFf id total six) :=
  pciByte_type 1 _
theorem pciCf (id : CanId) (sn : BitVec 4) (data : List Byte) : Statement (.pciCf id sn data) := pciByte_type 2 _
theorem pciFc (id : CanId) (fs : FlowStatus) (bs st : Byte) (padding : List Byte) :
    Statement (.pciFc id fs bs st padding) := pciByte_type 3 _
theorem reqReadDid (did : Did) : Statement (.reqReadDid did) :=
  sidOnly (0x22 : Byte) rfl rfl rfl
theorem reqWriteDid (did : Did) (data : List Byte) : Statement (.reqWriteDid did data) :=
  sidOnly (0x2E : Byte) rfl rfl rfl
theorem reqReadDtc (subfunction mask : Byte) : Statement (.reqReadDtc subfunction mask) :=
  sidOnly (0x19 : Byte) rfl rfl rfl
theorem reqClearDtc (group : Byte) : Statement (.reqClearDtc group) :=
  sidOnly (0x14 : Byte) rfl rfl rfl
theorem rspReadDid (rest : List Byte) : Statement (.rspReadDid rest) :=
  sidOnly (0x62 : Byte) rfl rfl rfl
theorem rspWriteDid (rest : List Byte) : Statement (.rspWriteDid rest) :=
  sidOnly (0x6E : Byte) rfl rfl rfl
theorem rspReadDtc (rest : List Byte) : Statement (.rspReadDtc rest) :=
  sidOnly (0x59 : Byte) rfl rfl rfl
theorem rspClearDtc (rest : List Byte) : Statement (.rspClearDtc rest) :=
  sidOnly (0x54 : Byte) rfl rfl rfl
theorem rspNegative (rest : List Byte) : Statement (.rspNegative rest) :=
  sidOnly (0x7F : Byte) rfl rfl rfl

end Sys2Proof.Laws.TableRow
end

