-- ==== Sys2Proof/Tests/Slice0.lean ====
section
/-! SUPPORT. The model's own tests: ill-formed terms, one written-out word for each constructor, one-step tests with the
expected values of spec/95_test_vectors.md, and for every statement with hypotheses a state that meets them. -/

namespace Sys2Proof.Tests

open Sys2Proof.Machine

/-! ### WellFormed refuses -/

theorem test_wf_refuses_sf_dl_8 : (Instr.pciSf 0 (List.replicate 8 0) []).wellFormed = false := by decide
theorem test_wf_refuses_sf_of_9_bytes : (Instr.pciSf 0 [1, 2] (List.replicate 6 0)).wellFormed = false := by decide
theorem test_wf_refuses_ff_with_5_bytes : (Instr.pciFf 0 9 [1, 2, 3, 4, 5]).wellFormed = false := by decide
theorem test_wf_refuses_cf_with_8_bytes : (Instr.pciCf 0 1 (List.replicate 8 0)).wellFormed = false := by decide
theorem test_wf_refuses_fc_of_9_bytes :
    (Instr.pciFc 0 .wait 0 0 (List.replicate 6 0)).wellFormed = false := by decide
theorem test_wf_refuses_long_write :
    (Instr.reqWriteDid 0 (List.replicate 4093 0)).wellFormed = false := by
  simp only [Instr.wellFormed, List.length_replicate]; decide
theorem test_wf_refuses_long_responses :
    (Instr.rspReadDid (List.replicate 4095 0)).wellFormed = false ∧
    (Instr.rspWriteDid (List.replicate 4095 0)).wellFormed = false ∧
    (Instr.rspReadDtc (List.replicate 4095 0)).wellFormed = false ∧
    (Instr.rspClearDtc (List.replicate 4095 0)).wellFormed = false ∧
    (Instr.rspNegative (List.replicate 4095 0)).wellFormed = false := by
  simp only [Instr.wellFormed, List.length_replicate]; decide

/-! ### Decoding: a word of every constructor, written out from 30_encoding.md R121 to R124, R130, R135 to R137 -/

theorem test_decode_enc_sf : decode (.command 0x00000001) = .ok .encSf := by decide
theorem test_decode_enc_ff : decode (.command 0x00000002) = .ok .encFf := by decide
theorem test_decode_enc_cf : decode (.command 0xFFFFFF03) = .ok .encCf := by decide
theorem test_decode_enc_fc : decode (.command 0x00000004) = .ok .encFc := by decide
theorem test_decode_classify : decode (.command 0x00000005) = .ok .classify := by decide
theorem test_decode_tp_recv : decode (.command 0x00000010) = .ok .tpRecv := by decide
theorem test_decode_tp_send : decode (.command 0x00000011) = .ok .tpSend := by decide
theorem test_decode_read_did : decode (.command 0x00000020) = .ok .readDid := by decide
theorem test_decode_write_did : decode (.command 0x00000021) = .ok .writeDid := by decide
theorem test_decode_read_dtc : decode (.command 0x00000022) = .ok .readDtc := by decide
theorem test_decode_clear_dtc : decode (.command 0x00000023) = .ok .clearDtc := by decide
theorem test_decode_dec_ecu_info : decode (.command 0x00000030) = .ok .decEcuInfo := by decide
theorem test_decode_dec_sensor : decode (.command 0x00000031) = .ok .decSensor := by decide
theorem test_decode_enc_thresholds : decode (.command 0x00000032) = .ok .encThresholds := by decide
theorem test_decode_dec_dtc_list : decode (.command 0x00000033) = .ok .decDtcList := by decide
theorem test_decode_lut_dtc : decode (.command 0x00000034) = .ok .lutDtc := by decide
theorem test_decode_lut_status : decode (.command 0x00000035) = .ok .lutStatus := by decide
theorem test_decode_reserved : decode (.command 0x00000036) = .error (.reservedOpcode 0x36) := by decide
theorem test_decode_pci_sf :
    decode (.frame (frameOf 0x7E8 [0x03, 0xAA, 0xBB, 0xCC, 0x55])) = .ok (.pciSf 0x7E8 [0xAA, 0xBB, 0xCC] [0x55]) := by
  decide
theorem test_decode_pci_ff :
    decode (.frame (frameOf 0x7E8 [0x1F, 0xFE, 1, 2, 3, 4, 5, 6])) = .ok (.pciFf 0x7E8 0xFFE [1, 2, 3, 4, 5, 6]) := by
  decide
theorem test_decode_pci_cf :
    decode (.frame (frameOf 0x123 [0x2F, 1, 2])) = .ok (.pciCf 0x123 15 [1, 2]) := by decide
theorem test_decode_pci_fc :
    decode (.frame (frameOf 0x7E8 [0x32, 0xFF, 0x7F, 0xAA])) = .ok (.pciFc 0x7E8 .overflow 0xFF 0x7F [0xAA]) := by
  decide
theorem test_decode_req_read_did : decode (.request [0x22, 0xF1, 0x90]) = .ok (.reqReadDid 0xF190) := by decide
theorem test_decode_req_write_did :
    decode (.request [0x2E, 0x01, 0x23, 0xE8, 0x03]) = .ok (.reqWriteDid 0x0123 [0xE8, 0x03]) := by decide
theorem test_decode_req_read_dtc : decode (.request [0x19, 0x02, 0xFF]) = .ok (.reqReadDtc 0x02 0xFF) := by decide
theorem test_decode_req_clear_dtc : decode (.request [0x14, 0xFF]) = .ok (.reqClearDtc 0xFF) := by decide
theorem test_decode_rsp_read_did :
    decode (.response [0x62, 0x01, 0xA4]) = .ok (.rspReadDid [0x01, 0xA4]) := by decide
theorem test_decode_rsp_write_did :
    decode (.response [0x6E, 0x01, 0x23]) = .ok (.rspWriteDid [0x01, 0x23]) := by decide
theorem test_decode_rsp_read_dtc : decode (.response [0x59, 0x02]) = .ok (.rspReadDtc [0x02]) := by decide
theorem test_decode_rsp_clear_dtc : decode (.response [0x54]) = .ok (.rspClearDtc []) := by decide
theorem test_decode_rsp_negative :
    decode (.response [0x7F, 0x22, 0x31]) = .ok (.rspNegative [0x22, 0x31]) := by decide

/-! ### The opcode table's words -/

/-- Whether an outcome is a next state. -/
def isNext (o : Out) : Bool :=
  match o with
  | .next _ => true
  | .fault _ => false
  | .refused _ => false

/-- The words of the table's rows, with the bits the table gives them. -/
def tableWords : List (Nat × Nat) :=
  [ (32, 0x01), (32, 0x02), (32, 0x03), (32, 0x04), (32, 0x05), (32, 0x10), (32, 0x11), (32, 0x20), (32, 0x21),
    (32, 0x22), (32, 0x23), (32, 0x30), (32, 0x31), (32, 0x32), (32, 0x33), (32, 0x34), (32, 0x35),
    (8, 0x00), (8, 0x10), (8, 0x20), (8, 0x30), (8, 0x22), (8, 0x2E), (8, 0x19), (8, 0x14), (8, 0x62),
    (8, 0x6E), (8, 0x59), (8, 0x54), (8, 0x7F) ]

theorem test_table_words_run_after_reset :
    tableWords.all (fun c => isNext (step (State.reset.withFetchWord c.1 c.2))) = true := by decide

theorem test_table_words_decode :
    decodeTableWord 32 0x35 = some .lutStatus ∧ decodeTableWord 32 0x22 = some .readDtc ∧
    decodeTableWord 8 0x22 = some (.reqReadDid 0) ∧ decodeTableWord 8 0x23 = some .clearDtc ∧
    decodeTableWord 8 0x2E = some (.reqWriteDid 0 []) ∧ decodeTableWord 8 0x7F = some (.rspNegative []) ∧
    decodeTableWord 8 0x00 = some (.pciSf 0x7E8 [] (List.replicate 7 0)) := by decide

/-! ### States and views of the tests -/

/-- Idle after reset, with arguments and listed buffer bytes. -/
def idleWith (a0 a1 a2 a3 : Word32) (mem : List Host.Cell := []) : State :=
  { State.reset with
    regs := { State.reset.regs with arg0 := a0, arg1 := a1, arg2 := a2, arg3 := a3 }
    mem := mem }

/-- The bytes of a buffer from a host offset on. -/
def cells (a : Nat) (bs : List Byte) : List Host.Cell := memStoreBytes [] a bs

/-- An operation in flight in a control state, 5 microseconds before the end of its wait. -/
def inFlight (c : Ctl) (o : BitVec 8) : State :=
  { State.reset with
    ctl := c
    op := o
    timer := { tmr := 0, lim := 5, respLim := 5 }
    port := { valid := presenting c, frame := Frame.zero } }

/-- A reassembly of 8 bytes in progress, 6 of them in RXBUF. -/
def accumulating (o : BitVec 8) : State :=
  { inFlight .respWait o with
    mem := cells rxBase [0, 1, 2, 3, 4, 5]
    rasm := { phase := .accumulating, exp := 8, len := 6, seq := 1, mf := true, why := 0 } }

/-- A transfer of 20 bytes with 6 sent, in a control state. -/
def transferring (c : Ctl) (bs bsCnt : BitVec 8) (stUs : Word32) (pos : BitVec 12 := 6) : State :=
  { inFlight c opTpSend with
    mem := cells txBase ((List.range 20).map (BitVec.ofNat 8))
    tx :=
      { State.reset.tx with
        len := 20, pos := pos, seq := 1, bs := bs, bsCnt := bsCnt, stUs := stUs, nFrames := 1, nFcWaits := 1 } }

/-- STATUS, ERR_DETAIL, RES_KIND and the results of an outcome. -/
def seen (o : Out) : Option (Nat × Nat × Nat × List Nat) :=
  match o with
  | .next t =>
      some ((statusWord t).toNat, t.status.errDetail.toNat, t.res.kind.toNat,
        [t.res.r0.toNat, t.res.r1.toNat, t.res.r2.toNat, t.res.r3.toNat])
  | .fault _ => none
  | .refused _ => none

/-- STATUS.STATE and the frame on the TX port of an outcome. -/
def onWire (o : Out) : Option (Nat × Bool × Nat × List Nat) :=
  match o with
  | .next t =>
      some ((ctlCode t.ctl).toNat, t.port.valid, t.port.frame.id.toNat, t.port.frame.data.map BitVec.toNat)
  | .fault _ => none
  | .refused _ => none

/-- FOUT of an outcome. -/
def built (o : Out) : Option (Nat × Nat × Nat × Nat) :=
  match o with
  | .next t => some (t.fout.id.toNat, t.fout.dlc.toNat, t.fout.d03.toNat, t.fout.d47.toNat)
  | .fault _ => none
  | .refused _ => none

/-- Buffer bytes of an outcome. -/
def bytesOf (a n : Nat) (o : Out) : Option (List Nat) :=
  match o with
  | .next t => some ((List.range n).map fun k => (byteAt t (a + k)).toNat)
  | .fault _ => none
  | .refused _ => none

/-! ### One step of every instruction (values of spec/95_test_vectors.md, by its row names) -/

-- 2.1
theorem test_enc_sf : built (exec .encSf (idleWith 0x122 0x1234 4 0 (cells txBase [1, 2, 3, 4]))) =
    some (0x7E0, 8, 0x34122207, 0x04030201) := by decide
theorem test_enc_sf_no_wrap : seen (exec .encSf (idleWith 0x3E 0 0xFFFF 0)) =
    some (0x206, 0x10000, 0, [0, 0, 0, 0]) := by decide
-- 2.2
theorem test_enc_ff :
    built (exec .encFf (idleWith 11 0 0 0 (cells txBase [0x2E, 0x01, 0x23, 0xE8, 0x03, 0xD0]))) =
      some (0x7E0, 8, 0x012E0B10, 0xD003E823) := by decide
theorem test_enc_ff_too_long : seen (exec .encFf (idleWith 4096 0 0 0)) = some (0x1106, 0, 0, [0, 0, 0, 0]) := by
  decide
theorem test_enc_cf :
    built (exec .encCf (idleWith 1 0 5 0 (cells txBase [0x07, 0x2C, 0x01, 0xDC, 0x05]))) =
      some (0x7E0, 6, 0x012C0721, 0x000005DC) := by decide
theorem test_enc_cf_seq_16 : seen (exec .encCf (idleWith 16 0 1 0)) = some (0x1106, 0, 0, [0, 0, 0, 0]) := by decide
theorem test_enc_fc : built (exec .encFc (idleWith 0 3 5 0)) = some (0x7E0, 3, 0x00050330, 0) := by decide
theorem test_enc_fc_st_f0 : seen (exec .encFc (idleWith 0 0 0xF0 0)) = some (0x1106, 0, 0, [0, 0, 0, 0]) := by decide
-- 2.3
theorem test_classify_fc :
    seen (exec .classify
      { State.reset with
        regs := { State.reset.regs with fin := { id := 0x7E8, dlc := 3, d03 := 0x050330, d47 := 0 } } }) =
      some (2, 0, 10, [3, 0x050300, 5000, 1]) := by decide
theorem test_classify_malformed :
    seen (exec .classify
      { State.reset with
        regs := { State.reset.regs with fin := { id := 0, dlc := 3, d03 := 0xF16205, d47 := 0 } } }) =
      some (0x306, 0x305, 0, [0, 0, 0, 0]) := by decide
-- 2.4 R14, and the window of DEF_TIMEOUT
theorem test_tp_recv : onWire (exec .tpRecv State.reset) = some (6, false, 0, []) := by decide
-- 2.5 T2, T13
theorem test_tp_send :
    onWire (exec .tpSend (idleWith 0 0 8 0 (cells txBase [0x11, 0x12, 0x13, 0x14, 0x15, 0x16, 0x17, 0x18]))) =
      some (2, true, 0x7E0, [0x10, 0x08, 0x11, 0x12, 0x13, 0x14, 0x15, 0x16]) := by decide
theorem test_tp_send_too_long : seen (exec .tpSend (idleWith 0 0 4096 0)) = some (0x1106, 0, 0, [0, 0, 0, 0]) := by
  decide
-- W5, W8
theorem test_read_did : onWire (exec .readDid (idleWith 0x01A4 0 0 0)) =
    some (1, true, 0x7E0, [0x03, 0x22, 0x01, 0xA4]) := by decide
theorem test_write_did :
    onWire (exec .writeDid
      (idleWith 0x0123 0 8 0 (cells txBase [0xE8, 0x03, 0xD0, 0x07, 0x2C, 0x01, 0xDC, 0x05]))) =
      some (2, true, 0x7E0, [0x10, 0x0B, 0x2E, 0x01, 0x23, 0xE8, 0x03, 0xD0]) := by decide
theorem test_read_dtc : onWire (exec .readDtc State.reset) = some (1, true, 0x7E0, [0x03, 0x19, 0x02, 0xFF]) := by
  decide
theorem test_clear_dtc : onWire (exec .clearDtc State.reset) = some (1, true, 0x7E0, [0x02, 0x14, 0xFF]) := by decide
-- W6, with the bytes after the VIN 0xEE
theorem test_dec_ecu_info :
    seen (exec .decEcuInfo
      { idleWith 0 0 98 0 (cells rxBase
          ([0x41, 0x42, 0x43, 0x31, 0x32, 0x33] ++ List.replicate 12 0 ++ List.replicate 80 0xEE)) with
        regs :=
          { State.reset.regs with cfg := { State.reset.regs.cfg with ecuLayout := 1 }, arg2 := 98 } }) =
      some (2, 0, 1, [6, 0, 1, 0]) := by decide +kernel
theorem test_dec_ecu_info_unset : seen (exec .decEcuInfo (idleWith 0 0 100 0)) =
    some (0x1306, 0, 0, [0, 0, 0, 0]) := by decide
-- W7
theorem test_dec_sensor : seen (exec .decSensor (idleWith 0 0 3 0 (cells rxBase [0x01, 0x90, 0x4F]))) =
    some (2, 0, 2, [400, 0x14F, 0, 0]) := by decide
theorem test_dec_sensor_past_the_end : seen (exec .decSensor (idleWith 0 4095 2 0)) =
    some (0x1106, 0, 0, [0, 0, 0, 0]) := by decide
-- W8
theorem test_enc_thresholds :
    bytesOf txBase 8 (exec .encThresholds (idleWith 0x07D003E8 0x05DC012C 0 0)) =
      some [0xE8, 0x03, 0xD0, 0x07, 0x2C, 0x01, 0xDC, 0x05] := by decide
-- W4
theorem test_dec_dtc_list :
    seen (exec .decDtcList (idleWith 0 16 5 0 (cells (rxBase + 16) [0xFF, 0x01, 0x01, 0x00, 0x08]))) =
      some (2, 0, 4, [1, 17, 0x1FF, 0]) := by decide
-- 2.7, DTC list: one record and three dangling bytes; two records
theorem test_dtc_records :
    dtcRecords [0x09, 0x12, 0x34, 0x56, 0x2F, 0xAB, 0xCD, 0xEF] = [{ code := 0x123456, status := 0x2F }] ∧
    dtcRecords [0xFF, 0x01, 0x01, 0x00, 0x08, 0x02, 0x02, 0x00, 0x09] =
      [{ code := 0x010100, status := 0x08 }, { code := 0x020200, status := 0x09 }] ∧
    dtcRecords [0xFF, 0x01, 0x02, 0x03] = [] := by decide
-- 45_payload_codecs.md R371, R373: the renderings of a miss
theorem test_lut_dtc_miss :
    (unknownCode ++ hexUpper 0x010100 6).map BitVec.toNat = "unknown code 0x010100".toList.map Char.toNat := by decide
theorem test_lut_status_miss :
    (unknownStatus ++ hexUpper 0xFF 2).map BitVec.toNat = "unknown status 0xFF".toList.map Char.toNat := by decide
-- 2.4 R1, R7
theorem test_pci_sf : seen (exec (.pciSf 0x7E8 [0xAA, 0xBB, 0xCC] []) (inFlight .respWait opTpRecv)) =
    some (0x200002, 0, 6, [3, 0, 0, 0]) := by decide
theorem test_pci_sf_while_accumulating :
    seen (exec (.pciSf 0x7E8 [0xAA, 0xBB, 0xCC] []) (accumulating opTpRecv)) =
      some (0x300406, 0x031, 0, [0, 0, 0, 0]) := by decide
-- 42_reassembly.md R246 example; 2.4 R6
theorem test_pci_ff :
    onWire (exec (.pciFf 0x7E8 100 [0x62, 0x01, 0x00, 0x41, 0x42, 0x43]) (inFlight .respWait opTpRecv)) =
      some (7, true, 0x7E0, [0x30, 0, 0]) := by decide
theorem test_pci_ff_too_short :
    seen (exec (.pciFf 0x7E8 7 [0, 1, 2, 3, 4, 5]) (inFlight .respWait opTpRecv)) =
      some (0x300306, 0x810, 0, [0, 0, 0, 0]) := by decide
-- 2.4 R4, R5; W2
theorem test_pci_cf :
    bytesOf rxBase 8 (exec (.pciCf 0x7E8 1 [6, 7, 8, 9]) (accumulating opTpRecv)) =
      some [0, 1, 2, 3, 4, 5, 6, 7] := by decide
theorem test_pci_cf_out_of_sequence :
    seen (exec (.pciCf 0x7E8 3 [6, 7]) (accumulating opTpRecv)) = some (0x300406, 0x231, 0, [0, 0, 0, 0]) := by decide
-- 43_transmitter.md R288; 2.5 T7
theorem test_pci_fc :
    onWire (exec (.pciFc 0x7E8 .continueToSend 3 5 []) (transferring .fcWait 0 0 0)) =
      some (4, true, 0x7E0, [0x21, 6, 7, 8, 9, 10, 11, 12]) := by decide
theorem test_pci_fc_wait :
    seen (exec (.pciFc 0x7E8 .wait 0 0 []) (transferring .fcWait 0 0 0)) = some (0x706, 1, 0, [0, 0, 0, 0]) := by decide
-- W8
theorem test_req_read_did : onWire (exec (.reqReadDid 0x01A4) (busInit State.reset)) =
    some (1, true, 0x7E0, [0x03, 0x22, 0x01, 0xA4]) := by decide
theorem test_req_write_did : onWire (exec (.reqWriteDid 0x0123 [1, 2, 3, 4]) (busInit State.reset)) =
    some (1, true, 0x7E0, [0x07, 0x2E, 0x01, 0x23, 1, 2, 3, 4]) := by decide
theorem test_req_read_dtc : onWire (exec (.reqReadDtc 0x02 0xFF) (busInit State.reset)) =
    some (1, true, 0x7E0, [0x03, 0x19, 0x02, 0xFF]) := by decide
theorem test_req_clear_dtc : onWire (exec (.reqClearDtc 0xFF) (busInit State.reset)) =
    some (1, true, 0x7E0, [0x02, 0x14, 0xFF]) := by decide

/-- READ_DID of 0x01A4 in its response window, that DID registered as a sensor. -/
def readingSensor : State :=
  { inFlight .respWait opReadDid with
    regs := { State.reset.regs with didSensor0 := { did := 0x01A4, valid := true } }
    didCur := 0x01A4 }

-- 2.6 S2, S5
theorem test_rsp_read_did : seen (exec (.rspReadDid [0x01, 0xA4, 0x01, 0x90, 0x4F]) readingSensor) =
    some (0x200002, 0, 2, [400, 0x14F, 0, 0]) := by decide
theorem test_rsp_read_did_other_did : seen (exec (.rspReadDid [0x01, 0xA5, 0x01, 0x90]) readingSensor) =
    some (0x201006, 0x01A5, 0, [0, 0, 0, 0]) := by decide
-- W8; 2.6 S12
theorem test_rsp_write_did :
    seen (exec (.rspWriteDid [0x01, 0x23]) { inFlight .ackWait opWriteDid with didCur := 0x0123 }) =
      some (0x200002, 0, 5, [0x6E, 0x0123, 0, 0]) := by decide
theorem test_rsp_write_did_too_long :
    seen (exec (.rspWriteDid [0x01, 0x23, 0x00]) { inFlight .ackWait opWriteDid with didCur := 0x0123 }) =
      some (0x200C06, 0, 0, [0, 0, 0, 0]) := by decide
-- W4; 2.6 S18
theorem test_rsp_read_dtc :
    seen (exec (.rspReadDtc [0x02, 0xFF, 0x01, 0x01, 0x00, 0x08]) (inFlight .respWait opReadDtc)) =
      some (0x200002, 0, 4, [1, 3, 0x1FF, 0]) := by decide
theorem test_rsp_read_dtc_too_short : seen (exec (.rspReadDtc []) (inFlight .respWait opReadDtc)) =
    some (0x200B06, 1, 0, [0, 0, 0, 0]) := by decide
-- 2.6 S20
theorem test_rsp_clear_dtc : seen (exec (.rspClearDtc [0xFF, 0xFF, 0xFF]) (inFlight .ackWait opClearDtc)) =
    some (0x200002, 0, 5, [0x54, 0, 0, 0]) := by decide
-- W5; 2.6 S8
theorem test_rsp_negative : seen (exec (.rspNegative [0x22, 0x31]) readingSensor) =
    some (0x200806, 0x1317F, 0, [0, 0, 0, 0]) := by decide
theorem test_rsp_negative_short : seen (exec (.rspNegative [0x22]) readingSensor) =
    some (0x200806, 0x7F, 0, [0, 0, 0, 0]) := by decide

/-! ### One step of every event -/

-- 2.5 T4
theorem test_tick_expires :
    seen (step { transferring .fcWait 0 0 0 with env := { State.reset.env with inputs := [.tick 5] } }) =
      some (0x606, 6, 0, [0, 0, 0, 0]) := by decide
theorem test_tick_before_the_end :
    onWire (step { transferring .fcWait 0 0 0 with env := { State.reset.env with inputs := [.tick 4] } }) =
      some (3, false, 0, []) := by decide
-- 43_transmitter.md R293: block end, separation time, end of the message
theorem test_tx_ack_ends_a_block : onWire (txAnswered true (transferring .txCf 3 2 0 13)) =
    some (3, false, 0, []) := by decide
theorem test_tx_ack_last : seen (txAnswered true (transferring .txCf 3 2 0 20)) =
    some (2, 0, 9, [2, 1, 20, 0]) := by decide
/-- A First Frame taken, its Flow Control frame presented, and a byte of an older exchange above `rasm_len`. -/
def presentingFlowControl : State :=
  { accumulating opTpRecv with
    ctl := .rxFc
    mem := cells rxBase [0, 1, 2, 3, 4, 5, 6, 7]
    port := { valid := true, frame := frameOf 0x7E0 [0x30, 0, 0] } }
-- 10_state.md R55: the bytes at and above `rasm_len` = 6 are unspecified, those below stay
theorem test_tx_reject_ends_reassembly :
    (match txAnswered false presentingFlowControl with
      | .next t => some (t.mem, t.ctl, t.status.errcode, t.status.errDetail, t.draws.rxbuf)
      | _ => none) = some (cells rxBase [0, 1, 2, 3, 4, 5], .idle, 0x01, 1, 1) := by decide
theorem test_tx_ack_rejected : seen (txAnswered false (transferring .txFf 0 0 0)) =
    some (0x106, 1, 0, [0, 0, 0, 0]) := by decide
-- 20_memory.md R81, R82, R87
theorem test_host_write_read :
    memRead (hostStore 0x2004 0x04030201 State.reset) 0x2004 = 0x04030201 ∧
    byteAt (hostStore 0x2004 0x04030201 State.reset) 0x2005 = 2 ∧
    memRead (hostStore 0x028 0xFFFF01A4 State.reset) 0x028 = 0x000101A4 := by decide
-- 70_reset_and_hazards.md R451
theorem test_reset_values :
    memRead State.reset 0x00C = 8 ∧ memRead State.reset 0x010 = 0x7E0 ∧ memRead State.reset 0x018 = 1000000 ∧
    memRead State.reset 0x004 = 0 ∧ memRead State.reset 0x3000 = 0 := by decide

/-! ### Witnesses: for every statement with hypotheses, operands and states that meet them, clause by clause -/

theorem witness_well_formed :
    (Instr.pciSf 0x7E8 [1, 2, 3, 4, 5, 6, 7] []).wellFormed = true ∧ (Instr.pciSf 0 [] []).wellFormed = true ∧
    (Instr.pciFf 0 0xFFF [1, 2, 3, 4, 5, 6]).wellFormed = true ∧
    (Instr.pciCf 0 15 [1, 2, 3, 4, 5, 6, 7]).wellFormed = true ∧
    (Instr.pciFc 0 .overflow 255 255 [1, 2, 3, 4, 5]).wellFormed = true := by decide
theorem witness_decoded_frame : decodeFrame (frameOf 0x7E8 [0x21, 0xAA]) = .ok (.pciCf 0x7E8 1 [0xAA]) := by decide
theorem witness_classified :
    classifyFrame (frameOf 0 [0x07, 1, 2, 3, 4, 5, 6, 7]) = .single 7 ∧
    classifyFrame (frameOf 0 [0x1F, 0xFF, 1, 2, 3, 4, 5, 6]) = .first 0xFFF ∧
    classifyFrame (frameOf 0 [0x20]) = .consecutive 0 ∧
    classifyFrame (frameOf 0 [0x32, 1, 2]) = .flowControl .overflow 1 2 ∧
    classifyFrame (frameOf 0 [0x40]) = .malformed := by decide
theorem witness_separation_time :
    (0x7F : Byte).toNat ≤ 0x7F ∧ (0xF1 ≤ (0xF1 : Byte).toNat ∧ (0xF9 : Byte).toNat ≤ 0xF9) ∧
    (0x80 ≤ (0x80 : Byte).toNat ∧ (0xF0 : Byte).toNat ≤ 0xF0) ∧ 0xFA ≤ (0xFA : Byte).toNat := by decide

/-- An idle block with a write to CMD scheduled. -/
def writingCmd : State := { State.reset with env := { State.reset.env with inputs := [.hostWrite 0 4 0x20] } }
/-- A response window with a Single Frame in the FIFO and an Rx event scheduled. -/
def receiving : State :=
  { inFlight .respWait opTpRecv with
    env := { State.reset.env with inputs := [.rx], rxFifo := [frameOf 0x7E8 [0x01, 0xAA]] } }

theorem witness_step_runs :
    (writingCmd.env.inputs = .hostWrite 0 4 0x20 :: [] ∧ decode (.command 0x20) = .ok .readDid ∧
      Instr.readDid.wellFormed = true) ∧
    (receiving.env.inputs = .rx :: [] ∧ receiving.env.rxFifo = frameOf 0x7E8 [0x01, 0xAA] :: [] ∧
      rxReady receiving.ctl = true ∧ decode (.frame (frameOf 0x7E8 [0x01, 0xAA])) = .ok (.pciSf 0x7E8 [0xAA] []) ∧
      (Instr.pciSf 0x7E8 [0xAA] []).wellFormed = true) := by decide
/-- An idle block with one input scheduled. -/
def scheduled (i : Input) : State := { State.reset with env := { State.reset.env with inputs := [i] } }
theorem witness_step_other_inputs :
    ((scheduled (.hostWrite 0 4 0x36)).env.inputs = .hostWrite 0 4 0x36 :: [] ∧ decodes (.command 0x36) = false) ∧
    (scheduled .rx).env.inputs = .rx :: [] ∧ (scheduled .rx).env.rxFifo = [] ∧
    rxReady (inFlight .txCf opTpSend).ctl = false ∧
    ((scheduled (.hostRead 0x3FFC 4)).env.inputs = .hostRead 0x3FFC 4 :: [] ∧ (0x3FFC : BitVec 16).toNat % 4 = 0) ∧
    ((scheduled (.hostWrite 2 4 0)).env.inputs = .hostWrite 2 4 0 :: [] ∧ (2 : BitVec 16).toNat % 4 ≠ 0) ∧
    (scheduled (.hostRead 0x4000 4)).env.inputs = .hostRead 0x4000 4 :: [] ∧
    (scheduled (.tick 0)).env.inputs = .tick 0 :: [] ∧ (scheduled (.busReady false)).env.inputs = .busReady false :: [] ∧
    State.reset.env.inputs = [] := by decide
theorem witness_frame_arrives : (scheduled (.frameArrives (frameOf 0x7E8 [0x40]))).env.inputs =
    .frameArrives (frameOf 0x7E8 [0x40]) :: [] := rfl
theorem witness_idle_and_bus_ready : State.reset.ctl = .idle ∧ State.reset.env.busReady = true ∧
    (idleWith 0 0 4092 0).regs.arg2.toNat % 65536 ≤ 4092 ∧ (idleWith 0 0 4095 0).regs.arg2.toNat % 65536 ≤ 4095 ∧
    7 < (idleWith 0 0 4095 0).regs.arg2.toNat % 65536 ∧ (idleWith 0 0 7 0).regs.arg2.toNat % 65536 ≤ 7 := by decide
theorem witness_response_rows :
    decodeResponse [0x62, 0x01, 0xA4] = .ok (.rspReadDid [0x01, 0xA4]) ∧
    (inFlight .respWait opReadDid).ctl = .respWait ∧ (inFlight .respWait opReadDid).rasm.phase = .idle ∧
    (inFlight .ackWait opWriteDid).ctl = .ackWait := by decide
theorem witness_busy : (inFlight .fcWait opTpSend).ctl ≠ .idle := by decide
theorem witness_reserved : decodes (.command 0x36) = false ∧ decodes (.command 0x00) = false ∧
    decodes (.command 0x0F) = false ∧ decodes (.command 0x12) = false ∧ decodes (.command 0x2F) = false := by decide
theorem witness_out_of_range :
    4095 < (idleWith 4096 0 0 0).regs.arg0.toNat % 65536 ∧ 15 < (idleWith 16 0 0 0).regs.arg0.toNat % 256 ∧
    7 < (idleWith 0 0 8 0).regs.arg2.toNat % 65536 ∧ 2 < (idleWith 3 0 0 0).regs.arg0.toNat % 256 ∧
    0x80 ≤ (idleWith 0 0 0x80 0).regs.arg2.toNat % 256 ∧ 0xFA ≤ (idleWith 0 0 0xFA 0).regs.arg2.toNat % 256 ∧
    4095 < (idleWith 0 0 4096 0).regs.arg2.toNat % 65536 ∧ 4092 < (idleWith 0 0 4093 0).regs.arg2.toNat % 65536 ∧
    4096 < (idleWith 0 4000 97 0).regs.arg1.toNat % 65536 + (idleWith 0 4000 97 0).regs.arg2.toNat % 65536 ∧
    isCommand .encFf = true := by decide
theorem witness_bus_not_ready :
    let s := { State.reset with env := { State.reset.env with busReady := false } }
    s.ctl = .idle ∧ s.env.busReady = false ∧ Instr.tpRecv ∈ busCommands ∧ Instr.clearDtc ∈ busCommands := by decide
theorem witness_earlier_session :
    let t := { State.reset with op := opTpRecv, rxLen := 7, timer := { tmr := 1, lim := 2, respLim := 3 } }
    t.ctl = .idle ∧ t.regs = State.reset.regs ∧ t.mem = State.reset.mem ∧ t.draws = State.reset.draws ∧
    t.fout = State.reset.fout ∧ t.env = State.reset.env ∧ t.port = State.reset.port ∧
    t.didCur = State.reset.didCur ∧ t.tx.hdr = State.reset.tx.hdr := by decide
theorem witness_error_details : (2 ^ 17 - 1 : Nat) < 2 ^ 17 ∧ (8 : Nat) ≤ 8 ∧ (2 ^ 16 - 1 : Nat) < 2 ^ 16 := by decide
theorem witness_enc_sf :
    1 + 0 + (idleWith 0x10 0 6 0).regs.arg2.toNat % 65536 ≤ 7 ∧
    7 < 1 + 2 + (idleWith 0x122 0 5 0).regs.arg2.toNat % 65536 := by decide
theorem witness_enc_ff_cf :
    (idleWith 4095 0 0 0).regs.arg0.toNat % 65536 ≤ 4095 ∧
    ((idleWith 15 0 7 0).regs.arg0.toNat % 256 ≤ 15 ∧ (idleWith 15 0 7 0).regs.arg2.toNat % 65536 ≤ 7) := by decide
theorem witness_enc_fc :
    ((idleWith 2 0 0x7F 0).regs.arg0.toNat % 256 ≤ 2 ∧ (idleWith 2 0 0x7F 0).regs.arg2.toNat % 256 ≤ 0x7F) ∧
    (0xF1 ≤ (idleWith 2 0 0xF1 0).regs.arg2.toNat % 256 ∧ (idleWith 2 0 0xF9 0).regs.arg2.toNat % 256 ≤ 0xF9) := by
  decide
theorem witness_classify : (State.reset.regs.fin.dlc.toNat ≤ 8) ∧ (8 < (9 : BitVec 4).toNat) ∧
    classifyFrame (frameFromRegs { id := 0, dlc := 8, d03 := 0x0201FF1F, d47 := 0x06050403 }) = .first 0xFFF := by decide
theorem witness_built :
    1 ≤ ([0x30] : List Byte).length ∧ (List.replicate 8 (0 : Byte)).length ≤ 8 ∧
    State.reset.regs.cfg.padEn = false ∧ { State.reset.regs.cfg with padEn := true }.padEn = true ∧
    ([1, 2, 3, 4, 5, 6, 7] : List Byte).length ≤ 7 ∧ ([1, 2, 3, 4, 5, 6] : List Byte).length = 6 := by decide
theorem witness_rx_range :
    let short := idleWith 0 4095 1 0
    let enough := idleWith 0 4094 2 0
    (short.regs.arg1.toNat % 65536 + short.regs.arg2.toNat % 65536 ≤ 4096 ∧ short.regs.arg2.toNat % 65536 < 2) ∧
    (enough.regs.arg1.toNat % 65536 + enough.regs.arg2.toNat % 65536 ≤ 4096 ∧ 2 ≤ enough.regs.arg2.toNat % 65536) := by
  decide
theorem witness_dec_ecu_info :
    State.reset.regs.cfg.ecuLayout = 0 ∧ (97 : Nat) < 98 ∧ (98 : Nat) ≤ 98 ∧ (99 : Nat) < 100 ∧
    (100 : Nat) ≤ (idleWith 0 0 100 0).regs.arg2.toNat % 65536 := by decide
theorem witness_ascii_clean :
    (∀ b ∈ ([0x41, 0xC3] : List Byte), b ≠ 0) ∧ ∃ tail : List Byte, ([0x00, 0x43] : List Byte) = 0 :: tail :=
  ⟨by decide, [0x43], rfl⟩
theorem witness_request_data : (List.replicate 4092 (0 : Byte)).length ≤ 4092 := by rw [List.length_replicate]
theorem witness_response_window :
    let s := inFlight .respWait opTpRecv
    s.ctl = .respWait ∧ s.op = opTpRecv ∧ s.rasm.phase = .idle ∧ s.regs.respId = 0x7E8 := by decide
theorem witness_first_frame :
    (7 : BitVec 12).toNat < 8 ∧ 8 ≤ (8 : BitVec 12).toNat ∧ State.reset.regs.cfg.rxFcEn = true ∧
    { State.reset.regs.cfg with rxFcEn := false }.rxFcEn = false := by decide
theorem witness_consecutive :
    let s := accumulating opTpRecv
    s.ctl = .respWait ∧ s.rasm.phase = .accumulating ∧ s.rasm.len.toNat < s.rasm.exp.toNat ∧
    s.rasm.len.toNat + min ([9] : List Byte).length (s.rasm.exp.toNat - s.rasm.len.toNat) < s.rasm.exp.toNat ∧
    s.rasm.len.toNat + min ([9, 9, 9] : List Byte).length (s.rasm.exp.toNat - s.rasm.len.toNat) = s.rasm.exp.toNat ∧
    s.op = opTpRecv ∧ (2 : BitVec 4) ≠ s.rasm.seq := by decide
theorem witness_ignored :
    (0x123 : CanId) ≠ State.reset.regs.respId ∧ State.reset.ctl = .idle ∧
    (inFlight .fcWait opTpSend).ctl = .fcWait ∧ (inFlight .ackWait opClearDtc).ctl = .ackWait ∧
    rxReady (inFlight .txCf opTpSend).ctl = false ∧ State.reset.ctl ≠ .respWait ∧ State.reset.ctl ≠ .ackWait := by
  decide
theorem witness_malformed :
    (frameOf 0x7E8 [0x40]).id = State.reset.regs.respId ∧ classifyFrame (frameOf 0x7E8 [0x40]) = .malformed ∧
    classifyFrame (frameOf 0x7E8 []) = .malformed := by decide
theorem witness_payload_lengths :
    (List.replicate 4095 (0 : Byte)).length ≤ 4095 ∧ ¬ (List.replicate 4095 (0 : Byte)).length ≤ 7 ∧
    (List.replicate 7 (0 : Byte)).length ≤ 7 := by
  simp only [List.length_replicate]; decide
theorem witness_reassembled_response :
    let s := inFlight .respWait opReadDtc
    s.ctl = .respWait ∧ s.op = opReadDtc ∧ s.rasm.phase = .idle ∧
    decodeResponse [0x59, 0x02, 0xFF, 1, 1, 0, 8, 2, 2] = .ok (.rspReadDtc [0x02, 0xFF, 1, 1, 0, 8, 2, 2]) := by decide
theorem witness_flow_control : (transferring .fcWait 0 0 0).ctl = .fcWait := by decide
theorem witness_taken_consecutive :
    let last := transferring .txCf 3 2 0 20
    let block := transferring .txCf 3 2 0 13
    let next := transferring .txCf 3 1 0 13
    let pause := transferring .txCf 0 0 5000 13
    (last.ctl = .txCf ∧ isSendOp last.op = true ∧ last.tx.pos = last.tx.len) ∧
    (block.tx.pos ≠ block.tx.len ∧ block.tx.bs ≠ 0 ∧ block.tx.bsCnt + 1 = block.tx.bs ∧
      block.tx.pos.toNat ≤ block.tx.len.toNat) ∧
    (next.tx.pos ≠ next.tx.len ∧ next.tx.bs ≠ 0 ∧ next.tx.bsCnt + 1 ≠ next.tx.bs ∧ next.tx.stUs = 0) ∧
    (pause.tx.pos ≠ pause.tx.len ∧ pause.tx.bs = 0 ∧ pause.tx.stUs ≠ 0) := by decide
theorem witness_answered :
    (inFlight .txSf opReadDid).ctl = .txSf ∧ isSendOp opReadDid = true ∧ (inFlight .txFf opTpSend).ctl = .txFf ∧
    (inFlight .rxFc opTpRecv).ctl = .rxFc ∧ presentingFlowControl.ctl = .rxFc := by decide
theorem witness_transmit :
    let s := transferring .fcWait 0 0 0
    s.ctl = .fcWait ∧ isSendOp s.op = true ∧ (stDecode 0).2 = 0 ∧ s.tx.pos = 6 ∧ s.tx.seq = 1 ∧
    8 ≤ s.tx.len.toNat ∧ (1 : Nat) < (s.tx.len.toNat - 6 + 6) / 7 := by decide
theorem witness_wrong_sid :
    ([] : List Byte).length = 0 ∧ ([0x7F, 0x22, 0x31] : List Byte).getD 0 0 ≠ 0x62 ∧
    ([0x55] : List Byte).getD 0 0 ≠ 0x54 ∧ ([0x55] : List Byte).length ≤ 7 ∧
    ((inFlight .ackWait opClearDtc).ctl = .ackWait ∧ (inFlight .ackWait opClearDtc).op = opClearDtc) := by decide
theorem witness_negative :
    (inFlight .respWait opReadDid).ctl = .respWait ∧ (inFlight .respWait opReadDid).op = opReadDid ∧
    1 + ([0x22, 0x31] : List Byte).length ≤ 4095 := by decide
theorem witness_read_did :
    let s := readingSensor
    s.ctl = .respWait ∧ s.op = opReadDid ∧
    ([0x01] : List Byte).length < 2 ∧ (0x01A5 : Nat) ≠ s.didCur.toNat ∧ (0x01A4 : Nat) = s.didCur.toNat ∧
    (s.regs.didSensor0.valid = true ∧ s.regs.didSensor0.did = s.didCur) ∧ s.regs.didEcu.valid = false ∧
    (([0x01, 0xA4, 7] : List Byte).drop 2).length < 2 ∧ 2 ≤ (([0x01, 0xA4, 7, 8] : List Byte).drop 2).length := by decide
theorem witness_read_did_ecu :
    let r := { State.reset.regs with didEcu := { did := 0, valid := true }, cfg := { State.reset.regs.cfg with ecuLayout := 2 } }
    let s := { inFlight .respWait opReadDid with regs := r }
    (s.regs.didEcu.valid = true ∧ s.regs.didEcu.did = s.didCur) ∧ s.regs.cfg.ecuLayout = 2 ∧
    State.reset.regs.cfg.ecuLayout = 0 ∧ State.reset.regs.didSensor0.valid = false := by decide
theorem witness_acknowledgements :
    let s := { inFlight .ackWait opWriteDid with didCur := 0x0123 }
    s.ctl = .ackWait ∧ s.op = opWriteDid ∧
    ([0x01, 0x23] : List Byte) = [s.didCur.extractLsb' 8 8, s.didCur.extractLsb' 0 8] ∧
    ([0x01, 0x24] : List Byte) ≠ [s.didCur.extractLsb' 8 8, s.didCur.extractLsb' 0 8] := by decide
theorem witness_expired :
    (inFlight .fcWait opTpSend).timer.tmr.toNat < (inFlight .fcWait opTpSend).timer.lim.toNat ∧
    State.reset.timer.lim.toNat ≤ State.reset.timer.tmr.toNat ∧
    (transferring .stWait 0 0 100).ctl = .stWait ∧ (inFlight .ackWait opWriteDid).op = opWriteDid ∧
    (inFlight .ackWait opClearDtc).op ≠ opWriteDid := by decide
theorem witness_events :
    let ticking := { inFlight .rxFc opTpRecv with env := { State.reset.env with inputs := [.tick 1] } }
    let answered := { inFlight .txSf opTpSend with env := { State.reset.env with inputs := [.txAck true] } }
    (ticking.env.inputs = .tick 1 :: [] ∧ ticking.ctl = .rxFc) ∧
    (answered.env.inputs = .txAck true :: [] ∧ answered.port.valid = true) ∧ State.reset.port.valid = false := by decide
theorem witness_host_write :
    ((scheduled (.hostWrite 0x00C 4 0x0F)).env.inputs = .hostWrite 0x00C 4 0x0F :: [] ∧
      0 < (0x00C : BitVec 16).toNat ∧ (0x3FFC : BitVec 16).toNat < 0x4000) ∧
    (0x00C : Nat) % 4 = 0 ∧ writableBits 0x00C ≠ 0 ∧ writableBits 0x2FFC ≠ 0 ∧ writableBits 0x3000 = 0 ∧
    writableBits 0x004 = 0 := by decide
theorem witness_host_port :
    ((0x3FFC : BitVec 16).toNat % 4 = 0 ∧ (0x3FFC : BitVec 16).toNat < 0x4000) ∧ (2 : BitVec 16).toNat % 4 ≠ 0 ∧
    ¬ (0x4000 : BitVec 16).toNat < 0x4000 ∧ (txBase ≤ 0x30FC ∧ 0x30FC < outEnd ∧ 0x30FC % 4 = 0) ∧
    (0x038 ≤ 0x03C ∧ 0x03C < 0x040 ∧ 0x03C % 4 = 0) := by decide
theorem witness_reset :
    { receiving with env := { receiving.env with inputs := [.reset] } }.env.inputs = .reset :: [] := by decide
theorem witness_inv : ∃ s t, Machine.Inv s ∧ step s = .next t := by
  refine ⟨receiving, _, ⟨⟨?_, ?_, ?_, ?_, ?_, ?_, ?_, ?_, ?_, ?_⟩, ⟨?_, ?_, ?_, ?_⟩, ?_⟩, rfl⟩ <;> decide

end Sys2Proof.Tests
end

section
/-! The proofs of the encoding statements: separation times, command words, frames built and frames classified. -/

namespace Sys2Proof.Machine

/-! ### Separation time (30_encoding.md R126) -/

theorem stDecode_milliseconds {v : Byte} (h : v.toNat ≤ 0x7F) :
    stDecode v = (true, BitVec.ofNat 32 (v.toNat * 1000)) := if_pos h

theorem stDecode_hundredMicroseconds {v : Byte} (h : 0xF1 ≤ v.toNat ∧ v.toNat ≤ 0xF9) :
    stDecode v = (true, BitVec.ofNat 32 ((v.toNat - 0xF0) * 100)) := by
  rw [stDecode, if_neg (by omega), if_pos h]

theorem stDecode_invalid {v : Byte} (h : 0x80 ≤ v.toNat ∧ v.toNat ≤ 0xF0 ∨ 0xFA ≤ v.toNat) :
    stDecode v = (false, 127000) := by
  rw [stDecode, if_neg (by omega), if_neg (by omega)]

/-! ### Reserved opcodes (30_encoding.md R129, R130, R132) -/

theorem commandOpcode_toNat (v : Word32) : (commandOpcode v).toNat = v.toNat % 256 := by simp [commandOpcode]

theorem decodes_eq_false_iff (c : Code) : decodes c = false ↔ ∃ e, decode c = .error e := by
  unfold decodes
  cases decode c <;> simp

/-- A command word is rejected exactly when no row of the opcode map has its opcode. -/
theorem decodeCommand_eq_error_iff (v : Word32) :
    (∃ e, decodeCommand v = .error e) ↔ ∀ row ∈ commandTable, row.1 ≠ commandOpcode v := by
  have hfind : commandTable.find? (fun row => row.1 == commandOpcode v) = none ↔
      ∀ row ∈ commandTable, row.1 ≠ commandOpcode v := by simp [List.find?_eq_none]
  rw [← hfind]
  unfold decodeCommand
  cases commandTable.find? (fun row => row.1 == commandOpcode v) <;> simp

theorem commandTable_opcodes : commandTable.map (fun row => row.1.toNat) =
    [0x01, 0x02, 0x03, 0x04, 0x05, 0x10, 0x11, 0x20, 0x21, 0x22, 0x23, 0x30, 0x31, 0x32, 0x33, 0x34, 0x35] := rfl

/-- The opcodes of the map (R130) leave exactly the reserved ranges of R132. -/
theorem notMem_commandTable_iff (o : BitVec 8) :
    (∀ row ∈ commandTable, row.1 ≠ o) ↔
      (o.toNat = 0x00 ∨ 0x06 ≤ o.toNat ∧ o.toNat ≤ 0x0F ∨ 0x12 ≤ o.toNat ∧ o.toNat ≤ 0x1F ∨
        0x24 ≤ o.toNat ∧ o.toNat ≤ 0x2F ∨ 0x36 ≤ o.toNat) := by
  have hrows : (∀ row ∈ commandTable, row.1 ≠ o) ↔ ∀ n ∈ commandTable.map (fun row => row.1.toNat), n ≠ o.toNat := by
    simp only [List.forall_mem_map, ne_eq, BitVec.toNat_inj]
  rw [hrows, commandTable_opcodes]
  simp only [List.forall_mem_cons, List.not_mem_nil, IsEmpty.forall_iff, implies_true, and_true]
  omega

theorem commandWritten_reserved {v : Word32} (s : State) (h : decodes (.command v) = false) :
    commandWritten v s = .next (reservedCommand (commandOpcode v) s) := by
  obtain ⟨e, he⟩ := (decodes_eq_false_iff _).mp h
  have hdec : decodeCommand v = .error e := he
  rw [commandWritten, hdec]

/-- A reserved opcode accepted in IDLE raises InvalidCommand at once (R174). -/
theorem reservedCommand_idle (o : BitVec 8) {s : State} (h : s.ctl = .idle) :
    reservedCommand o s = raise (.invalidCommand o) (accept o s) := command_accepted h rfl

/-! ### Frames to send (30_encoding.md R128) -/

theorem frameOf_data (id : CanId) {bytes : List Byte} (h : bytes.length ≤ 8) : (frameOf id bytes).data = bytes :=
  List.take_of_length_le h

theorem mkFrame_id (r : HostRegs) (bytes : List Byte) : (mkFrame r bytes).id = r.reqId := by
  unfold mkFrame
  split <;> rfl

theorem mkFrame_data_unpadded {r : HostRegs} (hp : r.cfg.padEn = false) {bytes : List Byte} (h : bytes.length ≤ 8) :
    (mkFrame r bytes).data = bytes := by
  simp [mkFrame, hp, frameOf_data _ h]

theorem mkFrame_data_padded {r : HostRegs} (hp : r.cfg.padEn = true) {bytes : List Byte} (h : bytes.length ≤ 8) :
    (mkFrame r bytes).data = bytes ++ List.replicate (8 - bytes.length) r.cfg.padByte := by
  have hl : (bytes ++ List.replicate (8 - bytes.length) r.cfg.padByte).length ≤ 8 := by simp; omega
  simp [mkFrame, hp, frameOf_data _ hl]

theorem mkFrame_dlc_unpadded {r : HostRegs} (hp : r.cfg.padEn = false) {bytes : List Byte} (h : bytes.length ≤ 8) :
    (mkFrame r bytes).dlc = bytes.length := by
  rw [Frame.dlc, mkFrame_data_unpadded hp h]

theorem mkFrame_dlc_padded {r : HostRegs} (hp : r.cfg.padEn = true) {bytes : List Byte} (h : bytes.length ≤ 8) :
    (mkFrame r bytes).dlc = 8 := by
  simp only [Frame.dlc, mkFrame_data_padded hp h, List.length_append, List.length_replicate]
  omega

theorem mkFrame_byte_padding {r : HostRegs} (hp : r.cfg.padEn = true) {bytes : List Byte} (h : bytes.length ≤ 8)
    {k : Nat} (hk : bytes.length ≤ k) (hk8 : k < 8) : (mkFrame r bytes).byte k = r.cfg.padByte := by
  have hrest : k - bytes.length < 8 - bytes.length := by omega
  rw [Frame.byte, mkFrame_data_padded hp h, List.getD_append_right _ _ _ _ hk, List.getD_replicate _ hrest]

/-! ### Received frames by PCI type (30_encoding.md R121 to R127, 41_frame_codec.md R209) -/

theorem pciType_eq_iff (b : Byte) (t : BitVec 4) : b.extractLsb' 4 4 = t ↔ b.toNat / 16 = t.toNat := by
  have hb : b.toNat < 256 := b.isLt
  rw [← BitVec.toNat_inj, BitVec.extractLsb'_toNat, Nat.shiftRight_eq_div_pow]
  omega

theorem pciParam_toNat (b : Byte) : (b.extractLsb' 0 4).toNat = b.toNat % 16 := by simp

/-- FS 0 to 2 are the flow statuses, 3 to 15 are reserved (R125). -/
theorem flowStatusOf_eq_none_iff (x : BitVec 4) : flowStatusOf x = none ↔ 3 ≤ x.toNat := by
  simp only [flowStatusOf, ← BitVec.toNat_inj, BitVec.reduceToNat]
  split_ifs <;> simp <;> omega

theorem classifyFrame_empty {f : Frame} (h : f.data = []) : classifyFrame f = .malformed := by
  simp [classifyFrame, Frame.dlc, h]

section
variable {f : Frame} {b0 : Byte} {rest : List Byte}

theorem byte_zero_of_data_cons (h : f.data = b0 :: rest) : f.byte 0 = b0 := by simp [Frame.byte, h]

theorem classifyFrame_sf (h : f.data = b0 :: rest) (ht : b0.toNat / 16 = 0) :
    classifyFrame f =
      if 7 < b0.toNat % 16 ∨ f.dlc < 1 + b0.toNat % 16 then .malformed else .single (b0.toNat % 16) := by
  simp [classifyFrame, byte_zero_of_data_cons h, pciType_eq_iff, ht, Frame.dlc, h]

theorem classifyFrame_ff (h : f.data = b0 :: rest) (ht : b0.toNat / 16 = 1) :
    classifyFrame f = if f.dlc < 8 then .malformed else .first (b0.extractLsb' 0 4 ++ f.byte 1) := by
  simp [classifyFrame, byte_zero_of_data_cons h, pciType_eq_iff, ht, Frame.dlc, h]

theorem classifyFrame_cf (h : f.data = b0 :: rest) (ht : b0.toNat / 16 = 2) :
    classifyFrame f = .consecutive (b0.extractLsb' 0 4) := by
  simp [classifyFrame, byte_zero_of_data_cons h, pciType_eq_iff, ht, Frame.dlc, h]

theorem classifyFrame_fc (h : f.data = b0 :: rest) (ht : b0.toNat / 16 = 3) :
    classifyFrame f =
      if f.dlc < 3 then .malformed
      else (flowStatusOf (b0.extractLsb' 0 4)).elim .malformed fun fs => .flowControl fs (f.byte 1) (f.byte 2) := by
  cases hfs : flowStatusOf (b0.extractLsb' 0 4) <;>
    simp [classifyFrame, byte_zero_of_data_cons h, pciType_eq_iff, ht, Frame.dlc, h, hfs]

theorem classifyFrame_reserved (h : f.data = b0 :: rest) (ht : 4 ≤ b0.toNat / 16) :
    classifyFrame f = .malformed := by
  have hne : ∀ t : BitVec 4, t.toNat < 4 → b0.extractLsb' 4 4 ≠ t := fun t hlt heq => by
    have := (pciType_eq_iff b0 t).mp heq
    omega
  simp [classifyFrame, byte_zero_of_data_cons h, hne, Frame.dlc, h]

/-- A frame with a byte 0 is malformed exactly in the cases R127 lists for its PCI type. -/
theorem classifyFrame_eq_malformed_iff (h : f.data = b0 :: rest) :
    classifyFrame f = .malformed ↔
      (4 ≤ b0.toNat / 16
        ∨ b0.toNat / 16 = 0 ∧ (8 ≤ b0.toNat % 16 ∨ f.data.length < 1 + b0.toNat % 16)
        ∨ b0.toNat / 16 = 1 ∧ f.data.length < 8
        ∨ b0.toNat / 16 = 3 ∧ (f.data.length < 3 ∨ 3 ≤ b0.toNat % 16)) := by
  have htype : b0.toNat / 16 = 0 ∨ b0.toNat / 16 = 1 ∨ b0.toNat / 16 = 2 ∨ b0.toNat / 16 = 3 ∨
      4 ≤ b0.toNat / 16 := by omega
  rcases htype with ht | ht | ht | ht | ht
  · rw [classifyFrame_sf h ht, Frame.dlc]
    split_ifs <;> simp <;> omega
  · rw [classifyFrame_ff h ht, Frame.dlc]
    split_ifs <;> simp <;> omega
  · simp [classifyFrame_cf h ht, ht]
  · have hfs := flowStatusOf_eq_none_iff (b0.extractLsb' 0 4)
    rw [pciParam_toNat] at hfs
    cases hx : flowStatusOf (b0.extractLsb' 0 4) <;>
      simp [classifyFrame_fc h ht, ht, hx, Frame.dlc, ← hfs]
  · simp [classifyFrame_reserved h ht, ht]

end

/-! ### The statements -/

/-- Settles O3, by the cases of the PCI type of byte 0. -/
theorem malformedFramesAreExactlyTheReservedEncodings :
    Obligations.MalformedFramesAreExactlyTheReservedEncodings := by
  intro f
  cases hd : f.data with
  | nil => simp [classifyFrame_empty hd]
  | cons b0 rest =>
    rw [classifyFrame_eq_malformed_iff hd, hd]
    simp

/-- Settles O11: the opcode map leaves exactly the reserved ranges, and a reserved opcode fails as any pure command
does. -/
theorem reservedOpcodeFinishesWithInvalidCommand : Obligations.ReservedOpcodeFinishesWithInvalidCommand := by
  intro v
  constructor
  · rw [decodes_eq_false_iff, decode, decodeCommand_eq_error_iff, notMem_commandTable_iff, commandOpcode_toNat]
  · intro s hidle hres
    obtain ⟨error, frame, res, fout, bytes⟩ := pureFailure_raise (commandOpcode v) s (.invalidCommand (commandOpcode v))
    have hdetail : errorDetail (.invalidCommand (commandOpcode v)) = BitVec.ofNat 32 (v.toNat % 256) := by
      rw [← commandOpcode_toNat]
      exact (BitVec.ofNat_toNat 32 (commandOpcode v)).symm
    refine ⟨_, ?_, hdetail ▸ error, res, frame, fout, bytes⟩
    rw [commandWritten_reserved s hres, reservedCommand_idle _ hidle]

/-- Settles O24, from the data bytes of a frame built with and without padding. -/
theorem builtFramesHaveTheirLength : Obligations.BuiltFramesHaveTheirLength := by
  intro r
  refine ⟨fun bytes _ h8 => ⟨mkFrame_id r bytes, fun hp => mkFrame_data_unpadded hp h8, fun hp => ?_⟩,
    fun hp => ⟨fun p hlen => ?_, fun total six hlen => ?_, fun sn d hlen => ?_, fun fs bs st => ?_⟩⟩
  · refine ⟨mkFrame_dlc_padded hp h8, ?_, fun k => mkFrame_byte_padding hp h8⟩
    rw [mkFrame_data_padded hp h8, List.take_left]
  · rw [sfFrame, mkFrame_dlc_unpadded hp (by simp; omega), List.length_cons, Nat.add_comm]
  · rw [ffFrame, mkFrame_dlc_unpadded hp (by simp; omega)]
    simp [hlen]
  · rw [cfFrame, mkFrame_dlc_unpadded hp (by simp; omega), List.length_cons, Nat.add_comm]
  · rw [fcFrame, mkFrame_dlc_unpadded hp (by simp)]
    rfl

/-- Settles O5, range by range. -/
theorem separationTimeDecodes : Obligations.SeparationTimeDecodes := by
  intro v
  refine ⟨fun h => ?_, fun h => ?_, fun h => ?_⟩
  · simp [stDecode_milliseconds h]
    omega
  · simp [stDecode_hundredMicroseconds h]
    omega
  · simp [stDecode_invalid h]

end Sys2Proof.Machine
end

section
/-! The proofs of the command interface statements: which request a word written to CMD makes. -/

namespace Sys2Proof.Machine

/-! ### Command words as command requests (30_encoding.md R130, 40_command_interface.md R172) -/

/-- A decoded command word names the row of the opcode map with its opcode. -/
theorem mem_commandTable_of_decodeCommand {v : Word32} {i : Instr} (h : decodeCommand v = .ok i) :
    (commandOpcode v, i) ∈ commandTable := by
  unfold decodeCommand at h
  split at h
  · next row hfind =>
    have hop : row.1 = commandOpcode v := by simpa using List.find?_some hfind
    cases h
    exact hop ▸ List.mem_of_find?_eq_some hfind
  · cases h

/-- Every row of the opcode map is run as a request with the row's opcode, a range check and a rule of its own. -/
theorem exec_of_mem_commandTable {row : BitVec 8 × Instr} (h : row ∈ commandTable) :
    ∃ argsOk rule, ∀ s, exec row.2 s = .next (command row.1 argsOk rule s) := by
  fin_cases h <;> exact ⟨_, _, fun _ => rfl⟩

/-- A write to CMD makes one command request, with the opcode of the word, be it in the opcode map or reserved. -/
theorem commandWritten_eq_command (v : Word32) :
    ∃ argsOk rule, ∀ s, commandWritten v s = .next (command (commandOpcode v) argsOk rule s) := by
  unfold commandWritten
  cases hdec : decodeCommand v with
  | ok i => exact exec_of_mem_commandTable (mem_commandTable_of_decodeCommand hdec)
  | error _ => exact ⟨_, _, fun _ => rfl⟩

/-! ### The statements -/

/-- Settles O10: whatever the word, the write is a command request, and a command request while BUSY is rejected. -/
theorem commandWhileBusyOnlySetsCmdRejected : Obligations.CommandWhileBusyOnlySetsCmdRejected := by
  intro s v hbusy
  obtain ⟨argsOk, rule, hreq⟩ := commandWritten_eq_command v
  rw [hreq, command_busy hbusy]

end Sys2Proof.Machine
end

section
/-! The proofs of the Frame Codec statements: the four frame builders and CLASSIFY. -/

namespace Sys2Proof.Machine

/-! ### Words made of fields -/

/-- A word put together from a low field and a field above it is the sum of the two at their places. -/
theorem or_shiftLeft_toNat {lo hi : Word32} {i : Nat} (hlo : lo.toNat < 2 ^ i) (hhi : hi.toNat * 2 ^ i < 2 ^ 32) :
    (lo ||| hi <<< i).toNat = lo.toNat + hi.toNat * 2 ^ i := by
  rw [BitVec.toNat_or, BitVec.toNat_shiftLeft, Nat.shiftLeft_eq, Nat.mod_eq_of_lt hhi, Nat.or_comm, Nat.mul_comm,
    ← Nat.two_pow_add_eq_or_of_lt hlo, Nat.add_comm]

/-- The detail of a PayloadTooLargeForSingleFrame is its length, which 17 bits hold (60_exceptions.md R402). -/
theorem errorDetail_payloadTooLarge {n : Nat} (h : n < 2 ^ 17) :
    errorDetail (.payloadTooLargeForSingleFrame n) = BitVec.ofNat 32 n := by
  apply BitVec.eq_of_toNat_eq
  simp [errorDetail]
  omega

/-- The detail of a MalformedPci is byte 0 with the dlc above it (60_exceptions.md R402). -/
theorem errorDetail_malformedPci (b : Byte) {dlc : Nat} (h : dlc ≤ 8) :
    errorDetail (.malformedPci b dlc) = BitVec.ofNat 32 (b.toNat + dlc * 2 ^ 8) := by
  have hb := b.isLt
  apply BitVec.eq_of_toNat_eq
  rw [errorDetail, or_shiftLeft_toNat] <;> simp <;> omega

/-- RES1 of a classified Flow Control frame: FS, BS and STmin, a byte each (R208). -/
theorem flowControlFields_eq (fs : FlowStatus) (bs st : Byte) :
    fs.code.setWidth 32 ||| bs.setWidth 32 <<< 8 ||| st.setWidth 32 <<< 16 =
      BitVec.ofNat 32 (fs.code.toNat + bs.toNat * 2 ^ 8 + st.toNat * 2 ^ 16) := by
  have hfs := fs.code.isLt
  have hbs := bs.isLt
  have hst := st.isLt
  have hlow : (fs.code.setWidth 32 ||| bs.setWidth 32 <<< 8).toNat = fs.code.toNat + bs.toNat * 2 ^ 8 := by
    rw [or_shiftLeft_toNat] <;> simp <;> omega
  apply BitVec.eq_of_toNat_eq
  rw [or_shiftLeft_toNat (by rw [hlow]; omega) (by simp; omega), hlow]
  simp
  omega

/-! ### Frames in registers (10_state.md R52, R53) -/

theorem foutHolds_of_fout_eq {t : State} {f : Frame} (h : t.fout = frameToRegs f) : FoutHolds t f where
  id := by rw [h]; rfl
  dlc := by
    have hle := f.le8
    rw [h]
    simp [frameToRegs, Frame.dlc]
    omega
  bytes k hk := by rw [h, dataByte_frameToRegs f (by have := f.le8; omega)]
  beyond k hk hk8 := by rw [h, dataByte_frameToRegs f hk8, List.getD_eq_default _ _ hk]; rfl

theorem wordByte_toNat (w : Word32) (k : Nat) : (wordByte w k).toNat = w.toNat / 256 ^ k % 256 := by
  rw [wordByte, BitVec.extractLsb'_toNat, Nat.shiftRight_eq_div_pow, Nat.pow_mul]

theorem frameFromRegs_dlc {r : FrameRegs} (h : r.dlc.toNat ≤ 8) : (frameFromRegs r).dlc = r.dlc.toNat := by
  simp [frameFromRegs, frameOf, Frame.dlc, h]

/-- Byte `k` of the frame that four registers hold (10_state.md R52). -/
theorem frameFromRegs_byte {r : FrameRegs} (h : r.dlc.toNat ≤ 8) {k : Nat} (hk : k < r.dlc.toNat) :
    ((frameFromRegs r).byte k).toNat = dataByte r k := by
  have hk8 : k < 8 := by omega
  simp only [frameFromRegs, frameOf, Frame.byte, List.getD_eq_getElem?_getD, List.getElem?_take_of_lt hk8,
    List.getElem?_take_of_lt hk]
  interval_cases k <;> simp [dataByte, wordByte_toNat]

/-! ### Built frames (41_frame_codec.md R201 to R207) -/

theorem sfFrame_eq (r : HostRegs) {p : List Byte} (h : p.length ≤ 7) :
    sfFrame r p = mkFrame r (BitVec.ofNat 8 p.length :: p) := by
  rw [sfFrame, pciByte_ofNat 0 (by omega)]
  simp

theorem cfFrame_eq (r : HostRegs) {seq : Nat} (h : seq ≤ 15) (d : List Byte) :
    cfFrame r (BitVec.ofNat 4 seq) d = mkFrame r (BitVec.ofNat 8 (0x20 + seq) :: d) := by
  rw [cfFrame, pciByte_ofNat 2 (by omega)]
  rfl

theorem fcFrame_eq (r : HostRegs) {fs : Nat} (h : fs ≤ 15) (bs st : Byte) :
    fcFrame r (BitVec.ofNat 4 fs) bs st = mkFrame r [BitVec.ofNat 8 (0x30 + fs), bs, st] := by
  rw [fcFrame, pciByte_ofNat 3 (by omega)]
  rfl

/-- A frame of 8 bytes leaves no room for padding. -/
theorem mkFrame_of_length_eq (r : HostRegs) {bytes : List Byte} (h : bytes.length = 8) :
    mkFrame r bytes = frameOf r.reqId bytes := by
  simp [mkFrame, h]

theorem ffFrame_eq (r : HostRegs) {total : Nat} (h : total ≤ 4095) {six : List Byte} (h6 : six.length = 6) :
    ffFrame r (BitVec.ofNat 12 total) six =
      frameOf r.reqId (BitVec.ofNat 8 (0x10 + total / 256) :: BitVec.ofNat 8 (total % 256) :: six) := by
  have hhigh : (BitVec.ofNat 12 total).extractLsb' 8 4 = BitVec.ofNat 4 (total / 256) := by
    apply BitVec.eq_of_toNat_eq
    simp [Nat.shiftRight_eq_div_pow]
    omega
  have hlow : (BitVec.ofNat 12 total).extractLsb' 0 8 = BitVec.ofNat 8 (total % 256) := by
    apply BitVec.eq_of_toNat_eq
    simp
  rw [ffFrame, mkFrame_of_length_eq _ (by simp [h6]), hhigh, hlow, pciByte_ofNat 1 (by omega)]
  rfl

/-! ### How a builder ends -/

/-- A command that puts a frame into FOUT and finishes with FRAME does nothing else. -/
theorem pureSuccess_putFout (o : BitVec 8) (s : State) (f : Frame) (r0 : Word32) :
    let t := finish .frame r0 0 0 0 (putFout f (accept o s))
    PureSuccess o s t 7 r0 0 0 0 ∧ sameBytes s t ∧ FoutHolds t f :=
  ⟨pureSuccess_finish o s (frameToRegs f) s.mem .frame r0 0 0 0, sameBytes_of rfl rfl, foutHolds_of_fout_eq rfl⟩

/-- A builder with a range check: the frame when the arguments are valid, InvalidArgument otherwise (30_encoding.md
R134). -/
theorem builder_outcome {o : BitVec 8} {argsOk : HostRegs → Bool} {rule : State → State} {s : State} {valid : Prop}
    {r0 : Word32} {f : Frame} (hidle : s.ctl = .idle) (hargs : argsOk s.regs = true ↔ valid)
    (hrule : valid → rule (accept o s) = finish .frame r0 0 0 0 (putFout f (accept o s))) :
    let t := command o argsOk rule s
    (valid → PureSuccess o s t 7 r0 0 0 0 ∧ sameBytes s t ∧ FoutHolds t f) ∧
      (¬ valid → PureFailure o s t 0x11 0) := by
  refine ⟨fun hvalid => ?_, fun hinvalid => ?_⟩
  · rw [command_accepted hidle (hargs.mpr hvalid), hrule hvalid]
    exact pureSuccess_putFout o s f r0
  · rw [command_out_of_range hidle (by rwa [← Bool.not_eq_true, hargs])]
    exact pureFailure_raise o s .invalidArgument

/-! ### Range checks (30_encoding.md R134) -/

theorem encFfArgsOk_iff (r : HostRegs) : encFfArgsOk r = true ↔ r.arg0.toNat % 65536 ≤ 4095 := by
  rw [encFfArgsOk, argTotalLen_eq, decide_eq_true_iff]

theorem encCfArgsOk_iff (r : HostRegs) :
    encCfArgsOk r = true ↔ r.arg0.toNat % 256 ≤ 15 ∧ r.arg2.toNat % 65536 ≤ 7 := by
  rw [encCfArgsOk, argSeq_eq, argLen_eq, Bool.and_eq_true, decide_eq_true_iff, decide_eq_true_iff]

/-- The separation times that are valid (30_encoding.md R126). -/
theorem stDecode_valid_iff (v : Byte) :
    (stDecode v).1 = true ↔ v.toNat ≤ 0x7F ∨ 0xF1 ≤ v.toNat ∧ v.toNat ≤ 0xF9 := by
  by_cases hms : v.toNat ≤ 0x7F
  · simp [stDecode_milliseconds hms, hms]
  · by_cases hus : 0xF1 ≤ v.toNat ∧ v.toNat ≤ 0xF9
    · simp [stDecode_hundredMicroseconds hus, hus]
    · rw [stDecode_invalid (by omega)]
      simp
      omega

theorem encFcArgsOk_iff (r : HostRegs) :
    encFcArgsOk r = true ↔ r.arg0.toNat % 256 ≤ 2 ∧
      (r.arg2.toNat % 256 ≤ 0x7F ∨ 0xF1 ≤ r.arg2.toNat % 256 ∧ r.arg2.toNat % 256 ≤ 0xF9) := by
  rw [encFcArgsOk, argFs_eq, Bool.and_eq_true, decide_eq_true_iff, stDecode_valid_iff, argSt_toNat]

theorem classifyArgsOk_iff (r : HostRegs) : classifyArgsOk r = true ↔ r.fin.dlc.toNat ≤ 8 := by
  rw [classifyArgsOk, decide_eq_true_iff]

/-! ### ENC_SF (R200) -/

/-- The payload of ENC_SF in the fields of 30_encoding.md R133. -/
theorem encSfPayload_eq (s : State) :
    encSfPayload s = s.regs.arg0.extractLsb' 0 8 ::
      ((if s.regs.arg0.getLsbD 8 then [s.regs.arg1.extractLsb' 8 8, s.regs.arg1.extractLsb' 0 8] else [])
        ++ txBytes s 0 (s.regs.arg2.toNat % 65536)) := by
  rw [encSfPayload, argLen_eq, argSfDid, hi8_low16, lo8_low16]
  rfl

/-- The length n of R200 is the length of the payload. -/
theorem encSfPayload_length (s : State) : (encSfPayload s).length = encSfLength s.regs := by
  cases hdid : argHasDid s.regs <;> simp [encSfPayload, encSfLength, hdid] <;> omega

/-- n of R200 does not wrap: it is below 2^17. -/
theorem encSfLength_lt (r : HostRegs) : encSfLength r < 2 ^ 17 := by
  have hdid := (argHasDid r).toNat_lt
  rw [encSfLength, argLen_eq]
  omega

theorem encSfRule_fits {s : State} (h : (encSfPayload s).length ≤ 7) :
    encSfRule s = finish .frame (BitVec.ofNat 32 (encSfPayload s).length) 0 0 0
      (putFout (mkFrame s.regs (BitVec.ofNat 8 (encSfPayload s).length :: encSfPayload s)) s) := by
  rw [← sfFrame_eq _ h, encSfPayload_length, encSfRule, if_neg (by rw [← encSfPayload_length]; omega)]

theorem encSfRule_tooLong {s : State} (h : 7 < (encSfPayload s).length) :
    encSfRule s = raise (.payloadTooLargeForSingleFrame (encSfPayload s).length) s := by
  rw [encSfPayload_length] at h ⊢
  rw [encSfRule, if_pos h]

/-! ### CLASSIFY (R208) -/

/-- A pure command that ends with a result and writes nothing before it. -/
theorem pureSuccess_finish_only (o : BitVec 8) (s : State) (k : ResKind) (r0 r1 r2 r3 : Word32) :
    let t := finish k r0 r1 r2 r3 (accept o s)
    PureSuccess o s t (resKindCode k) r0 r1 r2 r3 ∧ t.fout = s.fout ∧ sameBytes s t :=
  ⟨pureSuccess_finish o s s.fout s.mem k r0 r1 r2 r3, rfl, sameBytes_of rfl rfl⟩

section
variable (s : State)

theorem classifyRule_malformed (h : classifyFrame (frameFromRegs s.regs.fin) = .malformed)
    (hdlc : s.regs.fin.dlc.toNat ≤ 8) :
    classifyRule s = raise (.malformedPci ((frameFromRegs s.regs.fin).byte 0) s.regs.fin.dlc.toNat) s := by
  simp [classifyRule, h, frameFromRegs_dlc hdlc]

theorem classifyRule_single {n : Nat} (h : classifyFrame (frameFromRegs s.regs.fin) = .single n) :
    classifyRule s = finish .class 0 (BitVec.ofNat 32 n) 0 0 s := by
  simp [classifyRule, h]

theorem classifyRule_first {total : BitVec 12} (h : classifyFrame (frameFromRegs s.regs.fin) = .first total) :
    classifyRule s = finish .class 1 (total.setWidth 32) 0 0 s := by
  simp [classifyRule, h]

theorem classifyRule_consecutive {sn : BitVec 4}
    (h : classifyFrame (frameFromRegs s.regs.fin) = .consecutive sn) :
    classifyRule s = finish .class 2 (sn.setWidth 32) 0 0 s := by
  simp [classifyRule, h]

theorem classifyRule_flowControl {fs : FlowStatus} {bs st : Byte}
    (h : classifyFrame (frameFromRegs s.regs.fin) = .flowControl fs bs st) :
    classifyRule s =
      finish .class 3 (BitVec.ofNat 32 (fs.code.toNat + bs.toNat * 2 ^ 8 + st.toNat * 2 ^ 16))
        (stDecode st).2 (bit (stDecode st).1) s := by
  simp only [classifyRule, h, flowControlFields_eq]

end

/-! ### The statements -/

/-- Settles O19: the payload's length decides between the frame and the failure. -/
theorem encSfBuildsASingleFrame : Obligations.EncSfBuildsASingleFrame := by
  intro s hidle len did n
  have hpayload : encSfPayload (accept opEncSf s) = s.regs.arg0.extractLsb' 0 8 :: (did ++ txBytes s 0 len) :=
    encSfPayload_eq (accept opEncSf s)
  have hlen : (encSfPayload (accept opEncSf s)).length = n := by
    rw [hpayload]
    simp [n]
    omega
  refine ⟨_, rfl, fun hfits => ?_, fun hlong => ?_⟩ <;> rw [command_accepted hidle rfl]
  · rw [encSfRule_fits (hlen ▸ hfits), hlen, hpayload]
    exact pureSuccess_putFout opEncSf s _ _
  · have hn : n < 2 ^ 17 := by
      rw [← hlen, encSfPayload_length]
      exact encSfLength_lt _
    rw [encSfRule_tooLong (hlen ▸ hlong), hlen, ← errorDetail_payloadTooLarge hn]
    exact pureFailure_raise opEncSf s _

/-- Settles O20: a checked builder whose frame is the First Frame of TOTAL_LEN. -/
theorem encFfBuildsAFirstFrame : Obligations.EncFfBuildsAFirstFrame := by
  intro s hidle total
  obtain ⟨hframe, hfail⟩ := builder_outcome (rule := encFfRule) hidle (encFfArgsOk_iff s.regs) fun hvalid => by
    rw [encFfRule, argTotalLen_eq, accept_regs, ffFrame_eq _ hvalid (txBytes_length _ _ _)]
  exact ⟨_, rfl, hframe, fun hlong => hfail (Nat.not_le.mpr hlong)⟩

/-- Settles O21: a checked builder whose frame is the Consecutive Frame of SEQ. -/
theorem encCfBuildsAConsecutiveFrame : Obligations.EncCfBuildsAConsecutiveFrame := by
  intro s hidle seq len
  obtain ⟨hframe, hfail⟩ := builder_outcome (rule := encCfRule) hidle (encCfArgsOk_iff s.regs) fun hvalid => by
    rw [encCfRule, argSeq_eq, argLen_eq, accept_regs, cfFrame_eq _ hvalid.1]
  exact ⟨_, rfl, hframe, fun hbad => hfail (by omega)⟩

/-- Settles O22: a checked builder whose frame is the Flow Control frame of FS, BS and ST. -/
theorem encFcBuildsAFlowControlFrame : Obligations.EncFcBuildsAFlowControlFrame := by
  intro s hidle fs st valid
  obtain ⟨hframe, hfail⟩ := builder_outcome (rule := encFcRule) hidle (encFcArgsOk_iff s.regs) fun hvalid => by
    rw [encFcRule, argFs_eq, accept_regs, fcFrame_eq _ (by omega)]
  exact ⟨_, rfl, hframe, hfail⟩

/-- Settles O23, class by class. -/
theorem classifyReportsTheFrame : Obligations.ClassifyReportsTheFrame := by
  intro s hidle f dlc
  refine ⟨_, rfl, fun hlong => ?_, fun hdlc => ⟨frameFromRegs_dlc hdlc, fun k => frameFromRegs_byte hdlc, ?_⟩⟩
  · have hbad : classifyArgsOk s.regs = false := by
      rw [← Bool.not_eq_true, classifyArgsOk_iff]
      exact Nat.not_le.mpr hlong
    rw [command_out_of_range hidle hbad]
    exact pureFailure_raise opClassify s .invalidArgument
  · rw [command_accepted hidle ((classifyArgsOk_iff s.regs).mpr hdlc)]
    cases hc : classifyFrame f with
    | malformed =>
      rw [classifyRule_malformed (accept opClassify s) hc hdlc]
      exact errorDetail_malformedPci (f.byte 0) hdlc ▸ pureFailure_raise opClassify s (.malformedPci (f.byte 0) dlc)
    | single n =>
      rw [classifyRule_single (accept opClassify s) hc]
      exact pureSuccess_finish_only ..
    | first total =>
      rw [classifyRule_first (accept opClassify s) hc]
      exact pureSuccess_finish_only ..
    | consecutive sn =>
      rw [classifyRule_consecutive (accept opClassify s) hc]
      exact pureSuccess_finish_only ..
    | flowControl fs bs st =>
      rw [classifyRule_flowControl (accept opClassify s) hc]
      exact pureSuccess_finish_only ..

end Sys2Proof.Machine
end

section
/-! The proofs of the reassembly statements: how a reassembly starts and how a frame out of sequence ends it. -/

namespace Sys2Proof.Machine

/-! ### Bytes stored into RXBUF -/

theorem byteAt_storeRx_outside {s : State} {k a : Nat} {bs : List Byte}
    (h : a < rxBase + k ∨ rxBase + k + bs.length ≤ a) : byteAt (storeRx s k bs) a = byteAt s a := by
  rw [byteAt_storeRx, if_neg (by omega)]

theorem rxBytes_storeRx (s : State) (k : Nat) (bs : List Byte) : rxBytes (storeRx s k bs) k bs.length = bs := by
  refine List.ext_getElem (rxBytes_length _ _ _) fun i hi hbs => ?_
  have hin : rxBase + k ≤ rxBase + (k + i) ∧ rxBase + (k + i) < rxBase + k + bs.length := by omega
  have hoff : rxBase + (k + i) - (rxBase + k) = i := by omega
  rw [← List.getD_eq_getElem _ 0 hi, rxBytes_getD _ _ _ _ hbs, rxByte, byteAt_storeRx, if_pos hin, hoff,
    List.getD_eq_getElem _ 0 hbs]

/-! ### A reassembly that goes on and one that fails (42_reassembly.md R246, R248, R252) -/

/-- Storing received bytes, with any new reassembly state, control state and TX port, lets the wait go on. -/
theorem waitGoesOn_storeRx (s : State) {k : Nat} {bs : List Byte} (h : k + bs.length ≤ 4096) (r : Reassembly) (c : Ctl)
    (p : TxPort) : WaitGoesOn s { storeRx s k bs with rasm := r, ctl := c, port := p } where
  frame := {
    flight := ⟨rfl, rfl, rfl, rfl, rfl, rfl, rfl⟩
    tx := rfl
    txbuf := fun a ha => byteAt_storeRx_outside (s := s) (.inl (by omega)) }
  outbuf a ha := byteAt_storeRx_outside (s := s) (.inr (by simp only [rxBase, outBase] at ha ⊢; omega))
  status := rfl
  res := rfl
  rxLen := rfl
  timer := rfl
  draws := rfl

/-- Every failure of a reassembly forgets RXBUF from `rasm_len` on, and only that. -/
theorem reassemblyFails_rasmFail (e : CmdError) (s : State) :
    ReassemblyFails s (rasmFail e s) (errorCode e) (errorDetail e) where
  ends := {
    error := ⟨rfl, rfl, rfl, rfl, rfl, rfl, rfl, rfl⟩
    frame := {
      flight := ⟨rfl, rfl, rfl, rfl, rfl, rfl, rfl⟩
      tx := rfl
      txbuf := fun a ha => byteAt_forgetRx_outside s s.rasm.len.toNat a (.inl ha) }
    outbuf := fun a ha => byteAt_forgetRx_outside s s.rasm.len.toNat a (.inr ha)
    res := rfl
    rxLen := rfl
    txFrame := rfl
    accumulated := fun k v hk hv =>
      byteAt_forgetRx_listed s s.rasm.len.toNat (rxBase + k) v hv (Nat.add_lt_add_left hk rxBase) }
  rasm := rfl

/-- The detail of a SequenceError: the expected number, the received nibble and the type (60_exceptions.md R402). -/
theorem errorDetail_sequenceError (expected received : BitVec 4) (type : BitVec 2) :
    errorDetail (.sequenceError expected received type) =
      BitVec.ofNat 32 (expected.toNat + received.toNat * 2 ^ 4 + type.toNat * 2 ^ 8) := by
  have hx := expected.isLt
  have hr := received.isLt
  have ht := type.isLt
  have hlow : (expected.setWidth 32 ||| received.setWidth 32 <<< 4 : Word32).toNat =
      expected.toNat + received.toNat * 2 ^ 4 := by
    rw [or_shiftLeft_toNat] <;> simp <;> omega
  apply BitVec.eq_of_toNat_eq
  rw [errorDetail, or_shiftLeft_toNat (by rw [hlow]; omega) (by simp; omega), hlow]
  simp
  omega

/-- A SequenceError whose received nibble is the number `n`. -/
theorem reassemblyFails_sequenceError (s : State) {received : BitVec 4} (type : BitVec 2) {n : Nat}
    (h : received.toNat = n) :
    ReassemblyFails s (rasmFail (.sequenceError s.rasm.seq received type) s) 0x04
      (BitVec.ofNat 32 (s.rasm.seq.toNat + n * 2 ^ 4 + type.toNat * 2 ^ 8)) := by
  rw [← h, ← errorDetail_sequenceError]
  exact reassemblyFails_rasmFail _ s

/-! ### A First Frame in Idle (42_reassembly.md R246) -/

theorem totalHigh_toNat (total : BitVec 12) : (total.extractLsb' 8 4).toNat = total.toNat / 256 := by
  rw [BitVec.extractLsb'_toNat, Nat.shiftRight_eq_div_pow]
  omega

/-- A declared length below 8 has the high nibble 0, so byte 0 of the refused frame is 10. -/
theorem acceptFirst_tooShort {total : BitVec 12} (six : List Byte) (s : State) (h : total.toNat < 8) :
    acceptFirst total six s = rasmFail (.malformedPci 0x10 8) s := by
  have hhigh : total.extractLsb' 8 4 = 0 := BitVec.eq_of_toNat_eq (by rw [totalHigh_toNat]; simp; omega)
  rw [acceptFirst, if_pos h, hhigh]
  rfl

/-- A First Frame of at least 8 bytes stores its six bytes and starts a reassembly; RX_FC_EN decides whether a Flow
Control frame is presented. -/
theorem acceptFirst_starts {total : BitVec 12} (six : List Byte) (s : State) (h : 8 ≤ total.toNat) :
    ∃ c p, acceptFirst total six s =
        { storeRx s 0 six with
          rasm := { s.rasm with phase := .accumulating, len := 6, exp := total, seq := 1, mf := true }
          ctl := c
          port := p } ∧
      (s.regs.cfg.rxFcEn = false → c = s.ctl ∧ p = s.port) ∧
      (s.regs.cfg.rxFcEn = true → c = .rxFc ∧ p = { valid := true, frame := mkFrame s.regs [0x30, 0, 0] }) := by
  have hlong : ¬ total.toNat < 8 := by omega
  cases hfc : s.regs.cfg.rxFcEn with
  | false =>
    have hoff : ¬ s.regs.cfg.rxFcEn = true := by simp [hfc]
    exact ⟨s.ctl, s.port, (if_neg hlong).trans (if_neg hoff), fun _ => ⟨rfl, rfl⟩, nofun⟩
  | true => exact ⟨.rxFc, _, (if_neg hlong).trans (if_pos hfc), nofun, fun _ => ⟨rfl, rfl⟩⟩

/-! ### Received frames in RESP_WAIT -/

section
variable {s : State} (hctl : s.ctl = .respWait)
include hctl

theorem exec_pciFf_idle (hphase : s.rasm.phase = .idle) (total : BitVec 12) (six : List Byte) :
    exec (.pciFf s.regs.respId total six) s = .next (acceptFirst total six s) := by
  rw [exec, execPciFf, whenReceived_respWait hctl, respFirst, hphase]

variable (hphase : s.rasm.phase = .accumulating)
include hphase

theorem exec_pciSf_accumulating (payload padding : List Byte) :
    exec (.pciSf s.regs.respId payload padding) s =
      .next (rasmFail (.sequenceError s.rasm.seq (BitVec.ofNat 4 payload.length) 0) s) := by
  rw [exec, execPciSf, whenReceived_respWait hctl, respSingle, hphase]

theorem exec_pciFf_accumulating (total : BitVec 12) (six : List Byte) :
    exec (.pciFf s.regs.respId total six) s =
      .next (rasmFail (.sequenceError s.rasm.seq (total.extractLsb' 8 4) 1) s) := by
  rw [exec, execPciFf, whenReceived_respWait hctl, respFirst, hphase]

theorem exec_pciCf_accumulating (sn : BitVec 4) (data : List Byte) :
    exec (.pciCf s.regs.respId sn data) s = acceptConsecutive sn data s := by
  rw [exec, execPciCf, whenReceived_respWait hctl, respConsecutive, hphase]

end

theorem acceptConsecutive_outOfSequence {s : State} {sn : BitVec 4} (h : sn ≠ s.rasm.seq) (data : List Byte) :
    acceptConsecutive sn data s = .next (rasmFail (.sequenceError s.rasm.seq sn 2) s) := if_pos h

/-! ### The statements -/

/-- Settles O37: the declared length decides between the failure and the start, RX_FC_EN how the wait goes on. -/
theorem firstFrameStartsAReassembly : Obligations.FirstFrameStartsAReassembly := by
  intro s total six hctl hphase hsix
  refine ⟨_, exec_pciFf_idle hctl hphase total six, fun hshort => ?_, fun hlong => ?_⟩
  · rw [acceptFirst_tooShort six s hshort]
    exact reassemblyFails_rasmFail (.malformedPci 0x10 8) s
  · obtain ⟨c, p, heq, hoff, hon⟩ := acceptFirst_starts six s hlong
    rw [heq]
    refine ⟨waitGoesOn_storeRx s (by omega) _ c p, fun a ha => ?_, ?_, rfl, fun hen => ?_, fun hen => ?_⟩
    · exact byteAt_storeRx_outside (s := s) (k := 0) (by rw [hsix]; omega)
    · exact hsix ▸ rxBytes_storeRx s 0 six
    · obtain ⟨rfl, rfl⟩ := hoff hen
      exact ⟨hctl, rfl⟩
    · obtain ⟨rfl, rfl⟩ := hon hen
      exact ⟨rfl, rfl, rfl⟩

/-- Settles O39: each of the three frames fails the reassembly, with its own received nibble and type. -/
theorem frameOutOfSequenceFailsTheReassembly : Obligations.FrameOutOfSequenceFailsTheReassembly := by
  intro s hctl hphase detail
  refine ⟨fun sn data hsn => ⟨_, ?_, reassemblyFails_sequenceError s 2 rfl⟩,
    fun payload padding hlen => ⟨_, exec_pciSf_accumulating hctl hphase payload padding, ?_⟩,
    fun total six => ⟨_, exec_pciFf_accumulating hctl hphase total six, ?_⟩⟩
  · rw [exec_pciCf_accumulating hctl hphase, acceptConsecutive_outOfSequence hsn]
  · have hnibble : (BitVec.ofNat 4 payload.length).toNat = payload.length := by
      rw [BitVec.toNat_ofNat]
      omega
    exact reassemblyFails_sequenceError s 0 hnibble
  · exact reassemblyFails_sequenceError s 1 (totalHigh_toNat total)

end Sys2Proof.Machine
end

section
/-! The proofs of the transmitter statements: how a Consecutive Frame is presented, how a transfer ends and what a taken
Consecutive Frame does. -/

namespace Sys2Proof.Machine

/-! ### What the events of a transfer leave alone -/

/-- A change of the Transmitter, the control state, the TX port and the running timer is an event of a transfer. -/
theorem sendFrame_update (s : State) (x : Transmitter) (c : Ctl) (p : TxPort) (tmr lim : Word32) :
    SendFrame s { s with tx := x, ctl := c, port := p, timer := { s.timer with tmr := tmr, lim := lim } } where
  flight := ⟨rfl, rfl, rfl, rfl, rfl, rfl, rfl⟩
  rxLen := rfl
  rasm := rfl
  draws := rfl
  bytes := sameBytes_of rfl rfl

/-! ### Time (60_exceptions.md R420) -/

theorem sat32_toNat (x : Nat) : (sat32 x).toNat = min x (2 ^ 32 - 1) := by
  rw [sat32, BitVec.toNat_ofNat]
  omega

/-! ### The next Consecutive Frame (R292) -/

/-- The position after the next Consecutive Frame does not wrap, for it stays within the payload. -/
theorem sendCf_pos_toNat {s : State} (h : s.tx.pos.toNat ≤ s.tx.len.toNat) :
    (sendCf s).tx.pos.toNat = s.tx.pos.toNat + cfCount s := by
  have hle := cfCount_le s h
  rw [sendCf_tx, BitVec.toNat_ofNat]
  omega

theorem presentsConsecutive_sendCf {s : State} (h : s.tx.pos.toNat ≤ s.tx.len.toNat) :
    PresentsConsecutive s (sendCf s) where
  ctl := rfl
  valid := rfl
  pos := sendCf_pos_toNat h
  frame := by
    have hseq : s.tx.seq.toNat ≤ 15 := Nat.le_of_lt_succ s.tx.seq.isLt
    rw [← cfFrame_eq s.regs hseq, BitVec.ofNat_toNat, BitVec.setWidth_eq]
    rfl

/-! ### The end of a transfer (R296) -/

theorem ne_opTpSend_of_read {o : BitVec 8} (h : o = opReadDid ∨ o = opReadDtc) : o ≠ opTpSend := by
  rcases h with rfl | rfl <;> decide

theorem ne_opTpSend_of_write {o : BitVec 8} (h : o = opWriteDid ∨ o = opClearDtc) : o ≠ opTpSend := by
  rcases h with rfl | rfl <;> decide

theorem not_write_of_read {o : BitVec 8} (h : o = opReadDid ∨ o = opReadDtc) :
    ¬ (o = opWriteDid ∨ o = opClearDtc) := by
  rcases h with rfl | rfl <;> decide

/-- With its last frame taken, whatever the Transmitter has counted, a transfer ends as its command asks. -/
theorem txDone_transferEnds {s : State} (hsend : isSendOp s.op = true) {x : Transmitter}
    (hwaits : x.nFcWaits = s.tx.nFcWaits) (hlen : x.len = s.tx.len) :
    ∃ t, txDone { portTaken s with tx := x } = .next t ∧ TransferEnds s t x.nFrames ∧ t.tx = x := by
  obtain ⟨hop, hdone⟩ | ⟨hop, hdone⟩ | ⟨hop, hdone⟩ := txDone_cases (s := { portTaken s with tx := x }) hsend
  · refine ⟨_, hdone, ?_, rfl⟩
    rw [hwaits, hlen]
    exact {
      frame := ⟨⟨rfl, rfl, rfl, rfl, rfl, rfl, rfl⟩, rfl, rfl, rfl, sameBytes_of rfl rfl⟩
      txFrame := rfl
      valid := rfl
      sent := fun _ => ⟨⟨rfl, rfl, rfl, rfl, rfl, rfl, rfl, rfl⟩, rfl⟩
      response := fun hread => absurd hop (ne_opTpSend_of_read hread)
      acknowledgement := fun hwrite => absurd hop (ne_opTpSend_of_write hwrite) }
  · exact ⟨_, hdone, {
      frame := sendFrame_update ..
      txFrame := rfl
      valid := rfl
      sent := fun htp => absurd htp (ne_opTpSend_of_read hop)
      response := fun _ => ⟨rfl, rfl, rfl, rfl, rfl⟩
      acknowledgement := fun hwrite => absurd hwrite (not_write_of_read hop) }, rfl⟩
  · exact ⟨_, hdone, {
      frame := sendFrame_update ..
      txFrame := rfl
      valid := rfl
      sent := fun htp => absurd htp (ne_opTpSend_of_write hop)
      response := fun hread => absurd hop (not_write_of_read hread)
      acknowledgement := fun _ => ⟨rfl, rfl, rfl, rfl, rfl⟩ }, rfl⟩

/-! ### The statements -/

/-- Settles O45: each of the four cases of R293 decides which of the statement's clauses applies. -/
theorem takenConsecutiveFrameAdvancesTheTransfer : Obligations.TakenConsecutiveFrameAdvancesTheTransfer := by
  intro s hctl hsend hpos bsCnt counted
  rw [txAnswered_txCf hctl]
  obtain ⟨hend, hacked⟩ | ⟨hmore, hblock, hacked⟩ | ⟨hmore, hblock, hst, hacked⟩ | ⟨hmore, hblock, hst, hacked⟩ :=
    txCfAcked_cases (portTaken s) <;> rw [hacked]
  · obtain ⟨t, hdone, hends, htx⟩ := txDone_transferEnds (x := counted) hsend rfl rfl
    exact ⟨t, hdone, fun _ => ⟨hends, htx⟩, absurd hend, absurd hend, absurd hend, absurd hend⟩
  · exact ⟨_, rfl, hmore.elim, fun _ => ⟨sendFrame_update .., rfl, rfl⟩,
      fun _ _ => ⟨rfl, rfl, rfl, rfl, sat32_toNat _⟩, fun _ => absurd hblock, fun _ => absurd hblock⟩
  · have hpresents : PresentsConsecutive { s with tx := counted } (sendCf (countCf (portTaken s))) :=
      presentsConsecutive_sendCf hpos
    exact ⟨_, rfl, hmore.elim, fun _ => ⟨sendFrame_update .., rfl, rfl⟩,
      fun _ => hblock.elim, fun _ _ _ => ⟨hpresents, rfl, rfl⟩, fun _ _ => absurd hst⟩
  · exact ⟨_, rfl, hmore.elim, fun _ => ⟨sendFrame_update .., rfl, rfl⟩,
      fun _ => hblock.elim, fun _ _ => hst.elim, fun _ _ _ => ⟨rfl, rfl, rfl, rfl, rfl⟩⟩

end Sys2Proof.Machine
end

section
/-! The proofs of the payload codec statements: DEC_SENSOR, DEC_ECU_INFO, ENC_THRESHOLDS and the two lookups. -/

namespace Sys2Proof.Machine

/-! ### Words made of bytes -/

/-- Two bytes as a big-endian word. -/
theorem beWord_eq (a b : Byte) : (a ++ b).setWidth 32 = BitVec.ofNat 32 (a.toNat * 256 + b.toNat) := by
  have hb := b.isLt
  apply BitVec.eq_of_toNat_eq
  rw [BitVec.toNat_setWidth, BitVec.toNat_append, ← Nat.shiftLeft_add_eq_or_of_lt hb, Nat.shiftLeft_eq,
    BitVec.toNat_ofNat]

/-- Four byte values, each in its own byte of a word. -/
theorem packedBytes_eq {n0 n1 n2 n3 : Nat} (h0 : n0 < 256) (h1 : n1 < 256) (h2 : n2 < 256) (h3 : n3 < 256) :
    BitVec.ofNat 32 n0 ||| BitVec.ofNat 32 n1 <<< 8 ||| BitVec.ofNat 32 n2 <<< 16 ||| BitVec.ofNat 32 n3 <<< 24 =
      BitVec.ofNat 32 (n0 + n1 * 2 ^ 8 + n2 * 2 ^ 16 + n3 * 2 ^ 24) := by
  have hn : ∀ n < 256, (BitVec.ofNat 32 n).toNat = n := fun n h => by simp; omega
  have low1 : (BitVec.ofNat 32 n0 ||| BitVec.ofNat 32 n1 <<< 8).toNat = n0 + n1 * 2 ^ 8 := by
    rw [or_shiftLeft_toNat (by rw [hn n0 h0]; omega) (by rw [hn n1 h1]; omega), hn n0 h0, hn n1 h1]
  have low2 : (BitVec.ofNat 32 n0 ||| BitVec.ofNat 32 n1 <<< 8 ||| BitVec.ofNat 32 n2 <<< 16).toNat =
      n0 + n1 * 2 ^ 8 + n2 * 2 ^ 16 := by
    rw [or_shiftLeft_toNat (by omega) (by rw [hn n2 h2]; omega), low1, hn n2 h2]
  apply BitVec.eq_of_toNat_eq
  rw [or_shiftLeft_toNat (by omega) (by rw [hn n3 h3]; omega), low2, hn n3 h3, BitVec.toNat_ofNat]
  omega

/-- The low and the high byte of a 16-bit field make it up (00_scope.md R16). -/
theorem lo8_add_hi8 (x : BitVec 16) : (lo8 x).toNat + (hi8 x).toNat * 2 ^ 8 = x.toNat := by
  have hx := x.isLt
  simp [lo8, hi8, Nat.shiftRight_eq_div_pow]
  omega

/-- The bytes of the low field of a register that holds two. -/
theorem lowField_bytes (w : Word32) :
    (lo8 (w.extractLsb' 0 16)).toNat + (hi8 (w.extractLsb' 0 16)).toNat * 2 ^ 8 = w.toNat % 2 ^ 16 := by
  rw [lo8_add_hi8, BitVec.extractLsb'_toNat, Nat.shiftRight_zero]

/-- The bytes of the high field of a register that holds two. -/
theorem highField_bytes (w : Word32) :
    (lo8 (w.extractLsb' 16 16)).toNat + (hi8 (w.extractLsb' 16 16)).toNat * 2 ^ 8 = w.toNat / 2 ^ 16 := by
  have hw := w.isLt
  rw [lo8_add_hi8, BitVec.extractLsb'_toNat, Nat.shiftRight_eq_div_pow, Nat.mod_eq_of_lt (by omega)]

/-- The detail of an InvalidSensorPayload is its length, which 16 bits hold (60_exceptions.md R402). -/
theorem errorDetail_invalidSensorPayload {n : Nat} (h : n < 2 ^ 16) :
    errorDetail (.invalidSensorPayload n) = BitVec.ofNat 32 n :=
  BitVec.setWidth_ofNat_of_le_of_lt (by omega) h

/-- The detail of an EcuInfoPayloadTooShort is its length, which 16 bits hold (60_exceptions.md R402). -/
theorem errorDetail_ecuInfoPayloadTooShort {n : Nat} (h : n < 2 ^ 16) :
    errorDetail (.ecuInfoPayloadTooShort n) = BitVec.ofNat 32 n :=
  BitVec.setWidth_ofNat_of_le_of_lt (by omega) h

/-! ### Ranges of the buffers -/

/-- A range of RXBUF within a range. -/
theorem rxBytes_drop_take (s : State) (off : Nat) {n a w : Nat} (h : a + w ≤ n) :
    ((rxBytes s off n).drop a).take w = rxBytes s (off + a) w := by
  apply List.ext_getElem
  · simp
    omega
  · simp [rxBytes, Nat.add_assoc]

/-- Read after write inside the stored range, counted from its start. -/
theorem byteAt_storeAt_inside (s : State) (k : Nat) {bs : List Byte} {j : Nat} (h : j < bs.length) :
    byteAt (storeAt s k bs) (k + j) = bs.getD j 0 := by
  rw [byteAt_storeAt, if_pos (by omega), Nat.add_sub_cancel_left]

/-- A store within `[lo, hi)` keeps the bytes outside. -/
theorem sameBytesOutside_storeAt {lo hi k : Nat} {s t : State} {bs : List Byte} (h : sameBytesOutside lo hi s t)
    (hlo : lo ≤ k) (hhi : k + bs.length ≤ hi) : sameBytesOutside lo hi s (storeAt t k bs) := fun a ha => by
  rw [byteAt_storeAt, if_neg (by omega), h a ha]

theorem sameBytesOutside_storeOut {k : Nat} {s t : State} {bs : List Byte} (h : sameBytesOutside outBase outEnd s t)
    (hk : k + bs.length ≤ 256) : sameBytesOutside outBase outEnd s (storeOut t k bs) :=
  sameBytesOutside_storeAt h (by omega) (by rw [outBase, outEnd]; omega)

theorem sameBytesOutside_zeroOut (s : State) : sameBytesOutside outBase outEnd s (zeroOut s) := fun a ha => by
  rw [byteAt_zeroOut, if_neg (by omega)]

theorem byteAt_zeroOut_inside (s : State) {k : Nat} (hk : k < 256) : byteAt (zeroOut s) (outBase + k) = 0 := by
  rw [byteAt_zeroOut, if_pos (by rw [outBase, outEnd]; omega)]

/-! ### The range check of RXBUF (30_encoding.md R134) -/

theorem rxRangeArgsOk_iff (r : HostRegs) :
    rxRangeArgsOk r = true ↔ r.arg1.toNat % 65536 + r.arg2.toNat % 65536 ≤ 4096 := by
  rw [rxRangeArgsOk, argOff_eq, argLen_eq, decide_eq_true_iff]

section
variable {o : BitVec 8} {s : State} (hidle : s.ctl = .idle)

include hidle in
/-- A decoder of a range of RXBUF refuses one that ends past RXBUF. -/
theorem rxRange_past {rule : State → State} (h : 4096 < s.regs.arg1.toNat % 65536 + s.regs.arg2.toNat % 65536) :
    PureFailure o s (command o rxRangeArgsOk rule s) 0x11 0 := by
  have hbad : rxRangeArgsOk s.regs = false := by
    rw [← Bool.not_eq_true, rxRangeArgsOk_iff]
    exact Nat.not_le.mpr h
  rw [command_out_of_range hidle hbad]
  exact pureFailure_raise o s .invalidArgument

include hidle in
/-- A decoder of a range of RXBUF runs its rule on one within RXBUF. -/
theorem rxRange_within {rule : Nat → Nat → State → State}
    (h : s.regs.arg1.toNat % 65536 + s.regs.arg2.toNat % 65536 ≤ 4096) :
    command o rxRangeArgsOk (fun u => rule (argOff u.regs) (argLen u.regs) u) s =
      rule (s.regs.arg1.toNat % 65536) (s.regs.arg2.toNat % 65536) (accept o s) := by
  rw [command_accepted hidle ((rxRangeArgsOk_iff s.regs).mpr h), accept_regs, argOff_eq, argLen_eq]

end

/-! ### The sensor sample (R365) -/

/-- RES1 of a sample as a number: the quality with bit 8, or bit 9, or neither. -/
theorem sensorQuality_eq (n : Nat) (c : Byte) :
    sensorQuality n c = BitVec.ofNat 32
      (if n < 3 then 0 else if 0x20 ≤ c.toNat ∧ c.toNat ≤ 0x7E then c.toNat + 2 ^ 8 else 2 ^ 9) := by
  have hc := c.isLt
  by_cases hshort : n < 3
  · simp [sensorQuality, hshort]
  · by_cases hprint : 0x20 ≤ c.toNat ∧ c.toNat ≤ 0x7E
    · apply BitVec.eq_of_toNat_eq
      simp only [sensorQuality, hshort, printable, hprint, decide_true, Bool.and_self, and_self, if_true, if_false]
      rw [or_shiftLeft_toNat] <;> simp [bit] <;> omega
    · have hnot : printable c = false := by simpa [printable] using hprint
      simp only [sensorQuality, hshort, hnot, hprint, if_false, Bool.false_eq_true]
      rfl

theorem sensorDecode_tooShort (s : State) (off : Nat) {n : Nat} (h : n < 2) :
    sensorDecode off n s = raise (.invalidSensorPayload n) s := by
  rw [sensorDecode, if_pos h]

/-- A sample of 2 bytes or more is decoded to the words of its payload. -/
theorem sensorDecode_sample (s : State) (off : Nat) {n : Nat} (h : 2 ≤ n) :
    sensorDecode off n s = finish .sensorSample (sensorWords (rxBytes s off n)).1 (sensorWords (rxBytes s off n)).2
      0 0 s := by
  have hdistance : (sensorWords (rxBytes s off n)).1 = (rxByte s off ++ rxByte s (off + 1)).setWidth 32 := by
    rw [beWord_eq, sensorWords, rxBytes_getD s off n 0 (by omega), rxBytes_getD s off n 1 (by omega)]
    rfl
  have hquality : (sensorWords (rxBytes s off n)).2 = sensorQuality n (rxByte s (off + 2)) := by
    rw [sensorQuality_eq, sensorWords, rxBytes_length]
    by_cases hthird : n < 3
    · simp [hthird]
    · rw [rxBytes_getD s off n 2 (by omega)]
  rw [sensorDecode, if_neg (by omega), hdistance, hquality]

/-! ### The ECU info (R362, R363) -/

theorem asciiClean_length_le (b : List Byte) : (asciiClean b).length ≤ b.length :=
  (List.length_filter_le _ _).trans (List.takeWhile_sublist _).length_le

/-- Every text is shorter than its slot of 32 bytes. -/
theorem ecuField_length_le (s : State) (off slot : Nat) : (ecuField s off slot).length ≤ 20 := by
  have hwidth : ecuFieldWidth slot ≤ 20 := by
    unfold ecuFieldWidth
    split <;> omega
  have hclean := asciiClean_length_le
    (rxBytes s (off + ecuFieldStart s.regs.cfg.ecuLayout slot) (ecuFieldWidth slot))
  rw [rxBytes_length] at hclean
  exact hclean.trans hwidth

/-- The five fields start and end where the table of R362 says. -/
theorem ecuTable_eq (layout : BitVec 2) :
    ecuTable layout = (List.range 5).map fun slot => (ecuFieldStart layout slot, ecuFieldWidth slot) := by
  by_cases h : layout = 1 <;> simp only [ecuTable, ecuFieldStart, ecuFieldWidth, h, if_true, if_false] <;> rfl

theorem ecuField_within (layout : BitVec 2) {slot : Nat} (h : slot < 5) :
    ecuFieldStart layout slot + ecuFieldWidth slot ≤ ecuSize layout := by
  unfold ecuFieldStart ecuFieldWidth ecuSize
  split <;> split <;> omega

/-- The texts of a payload that fills the layout are the fields the decoder reads. -/
theorem ecuTexts_rxBytes (s : State) (off : Nat) {n : Nat} (h : ecuSize s.regs.cfg.ecuLayout ≤ n) :
    ecuTexts s.regs.cfg.ecuLayout (rxBytes s off n) = (List.range 5).map (ecuField s off) := by
  rw [ecuTexts, ecuTable_eq, List.map_map]
  refine List.map_congr_left fun slot hslot => ?_
  have hwithin := ecuField_within s.regs.cfg.ecuLayout (List.mem_range.mp hslot)
  rw [Function.comp_apply, rxBytes_drop_take s off (hwithin.trans h), ecuField]

theorem ecuDecode_notSelected (s : State) (off n : Nat)
    (h : s.regs.cfg.ecuLayout = 0 ∨ s.regs.cfg.ecuLayout = 3) :
    ecuDecode off n s = raise (.ecuLayoutNotSelected s.regs.cfg.ecuLayout) s := by
  simp only [ecuDecode, h, if_true]

section
variable {s : State} (hlayout : s.regs.cfg.ecuLayout = 1 ∨ s.regs.cfg.ecuLayout = 2)

include hlayout in
theorem ecuLayout_selected : ¬ (s.regs.cfg.ecuLayout = 0 ∨ s.regs.cfg.ecuLayout = 3) := by
  rcases hlayout with h | h <;> rw [h] <;> decide

include hlayout in
theorem ecuDecode_tooShort (off : Nat) {n : Nat} (h : n < ecuSize s.regs.cfg.ecuLayout) :
    ecuDecode off n s = raise (.ecuInfoPayloadTooShort n) s := by
  simp only [ecuDecode, ecuLayout_selected hlayout, h, if_false, if_true]

include hlayout in
/-- A payload that fills the selected layout is decoded to its five texts. -/
theorem ecuDecode_info (off : Nat) {n : Nat} (h : ecuSize s.regs.cfg.ecuLayout ≤ n) :
    let texts := ecuTexts s.regs.cfg.ecuLayout (rxBytes s off n)
    ecuDecode off n s = finish .ecuInfo (ecuLengths texts) (BitVec.ofNat 32 (textLength texts 4))
      (s.regs.cfg.ecuLayout.setWidth 32) 0 (putEcuFields s off) := by
  have hbyte : ∀ slot, (ecuField s off slot).length < 256 := fun slot =>
    (ecuField_length_le s off slot).trans_lt (by omega)
  have hlengths : ecuLengths ((List.range 5).map (ecuField s off)) =
      ecuLen s off 0 ||| ecuLen s off 1 <<< 8 ||| ecuLen s off 2 <<< 16 ||| ecuLen s off 3 <<< 24 :=
    (packedBytes_eq (hbyte 0) (hbyte 1) (hbyte 2) (hbyte 3)).symm
  simp only [ecuDecode, ecuLayout_selected hlayout, Nat.not_lt.mpr h, if_false, ecuTexts_rxBytes s off h, hlengths]
  rfl

end

/-! ### Texts in OUTBUF -/

/-- A zeroed OUTBUF holds no text. -/
theorem outbufHolds_zeroOut (s : State) : outbufHolds (zeroOut s) [] := fun k hk => by
  rw [byteAt_zeroOut_inside s hk]
  rfl

/-- A text stored into the first free slot joins the texts OUTBUF holds. -/
theorem outbufHolds_storeOut {s : State} {texts : List (List Byte)} {text : List Byte} {k : Nat}
    (h : outbufHolds s texts) (hk : k = 32 * texts.length) (hlen : text.length ≤ 32) :
    outbufHolds (storeOut s k text) (texts ++ [text]) := fun j hj => by
  subst hk
  rw [byteAt_storeOut]
  obtain hbelow | hslot | habove := Nat.lt_trichotomy (j / 32) texts.length
  · rw [if_neg (by omega), h j hj, List.getD_append _ _ _ _ hbelow]
  · rw [List.getD_append_right _ _ _ _ hslot.ge, hslot, Nat.sub_self, List.getD_cons_zero]
    by_cases hin : j % 32 < text.length
    · rw [if_pos (by omega)]
      congr 1
      omega
    · rw [if_neg (by omega), h j hj, List.getD_eq_default _ _ hslot.ge, List.getD_eq_default text _ (by omega)]
      simp
  · rw [if_neg (by omega), h j hj, List.getD_eq_default _ _ habove.le,
      List.getD_eq_default (texts ++ [text]) _ (by rw [List.length_append, List.length_singleton]; exact habove)]

/-- OUTBUF after a successful ECU-info decode (R362). -/
theorem outbufHolds_putEcuFields (s : State) (off : Nat) {n : Nat} (h : ecuSize s.regs.cfg.ecuLayout ≤ n) :
    outbufHolds (putEcuFields s off) (ecuTexts s.regs.cfg.ecuLayout (rxBytes s off n)) := by
  rw [ecuTexts_rxBytes s off h]
  have hslot : ∀ slot, (ecuField s off slot).length ≤ 32 := fun slot =>
    (ecuField_length_le s off slot).trans (by omega)
  have h1 := outbufHolds_storeOut (outbufHolds_zeroOut s) rfl (hslot 0)
  have h2 := outbufHolds_storeOut h1 rfl (hslot 1)
  have h3 := outbufHolds_storeOut h2 rfl (hslot 2)
  have h4 := outbufHolds_storeOut h3 rfl (hslot 3)
  exact outbufHolds_storeOut h4 rfl (hslot 4)

theorem sameBytesOutside_putEcuFields (s : State) (off : Nat) :
    sameBytesOutside outBase outEnd s (putEcuFields s off) := by
  have hend : ∀ slot k, k ≤ 128 → k + (ecuField s off slot).length ≤ 256 := fun slot k hk => by
    have := ecuField_length_le s off slot
    omega
  have h0 := sameBytesOutside_storeOut (sameBytesOutside_zeroOut s) (hend 0 0 (by omega))
  have h1 := sameBytesOutside_storeOut h0 (hend 1 32 (by omega))
  have h2 := sameBytesOutside_storeOut h1 (hend 2 64 (by omega))
  have h3 := sameBytesOutside_storeOut h2 (hend 3 96 (by omega))
  exact sameBytesOutside_storeOut h3 (hend 4 128 (by omega))

/-- OUTBUF that is zeroed and then given one text reads as the text followed by zeros. -/
theorem byteAt_storeOut_zeroOut (s : State) (text : List Byte) {k : Nat} (hk : k < 256) :
    byteAt (storeOut (zeroOut s) 0 text) (outBase + k) = text.getD k 0 := by
  by_cases hin : k < text.length
  · exact byteAt_storeAt_inside (zeroOut s) outBase hin
  · rw [byteAt_storeOut, if_neg (by omega), byteAt_zeroOut_inside s hk, List.getD_eq_default _ _ (by omega)]

/-! ### Sensor thresholds (R366) -/

/-- TXBUF[0..8) after ENC_THRESHOLDS. -/
theorem txByte_encThresholdsRule (s : State) {k : Nat} (hk : k < 8) :
    txByte (encThresholdsRule s) k = (thresholdBytes s.regs).getD k 0 := by
  have hstore : txByte (encThresholdsRule s) k = byteAt (storeTx s 0 (thresholdBytes s.regs)) (txBase + k) :=
    byteAt_congr rfl rfl _
  rw [hstore]
  exact byteAt_storeAt_inside s txBase hk

/-! ### The lookups (R371 to R373) -/

@[simp] theorem hexUpper_length (v w : Nat) : (hexUpper v w).length = w := by
  induction w with
  | zero => rfl
  | succ w ih => rw [hexUpper, List.length_cons, ih]

theorem hexDigit_toNat {d : Nat} (h : d < 16) :
    (hexDigit d).toNat = if d < 10 then 0x30 + d else 0x41 + (d - 10) := by
  rw [hexDigit, BitVec.toNat_ofNat]
  split <;> omega

/-- Digit `k` of `w` counts from the most significant (R372). -/
theorem hexUpper_getD (v : Nat) {w k : Nat} (h : k < w) :
    (hexUpper v w).getD k 0 = hexDigit (v / 16 ^ (w - 1 - k) % 16) := by
  induction w generalizing k with
  | zero => omega
  | succ w ih =>
    cases k with
    | zero => rfl
    | succ k =>
      rw [hexUpper, List.getD_cons_succ, ih (by omega)]
      congr 4
      omega

/-- A pure command that ends with a text writes it to OUTBUF, zeros after it, and nothing else. -/
theorem textResult_outcome (o : BitVec 8) (s : State) {text : List Byte} (hit : Bool) (hlen : text.length ≤ 256) :
    let t := textResult (text, hit) (accept o s)
    PureSuccess o s t 11 (BitVec.ofNat 32 text.length) (bit hit) 0 0 ∧ t.fout = s.fout ∧
      sameBytesOutside outBase outEnd s t ∧ ∀ k, k < 256 → byteAt t (outBase + k) = text.getD k 0 :=
  ⟨pureSuccess_finish o s s.fout _ .text _ _ _ _, rfl,
    sameBytesOutside_storeOut (bs := text) (sameBytesOutside_zeroOut s) (by omega),
    fun _ => byteAt_storeOut_zeroOut s text⟩

/-! ### The statements -/

/-- Settles O26: the range check, then the length of the payload decides. -/
theorem decSensorDecodesTheSample : Obligations.DecSensorDecodesTheSample := by
  intro s hidle off len
  refine ⟨_, rfl, rxRange_past hidle, fun hrange hshort => ?_, fun hrange hlong => ?_⟩
    <;> rw [rxRange_within (rule := sensorDecode) hidle hrange]
  · rw [sensorDecode_tooShort _ _ hshort, ← errorDetail_invalidSensorPayload (by omega)]
    exact pureFailure_raise opDecSensor s (.invalidSensorPayload len)
  · rw [sensorDecode_sample _ _ hlong, rxBytes_congr (s := s) rfl rfl]
    exact pureSuccess_finish_only ..

/-- Settles O27: the range check, the layout and the size decide in this order. -/
theorem decEcuInfoDecodesTheTexts : Obligations.DecEcuInfoDecodesTheTexts := by
  intro s hidle off len layout size texts
  let u := accept opDecEcuInfo s
  have hrun : off + len ≤ 4096 → command opDecEcuInfo rxRangeArgsOk _ s = ecuDecode off len u :=
    rxRange_within (rule := ecuDecode) hidle
  refine ⟨_, rfl, rxRange_past hidle, fun hrange hnone => ?_, fun hrange hlayout hshort => ?_,
    fun hrange hlayout hlong => ?_⟩ <;> rw [hrun hrange]
  · rw [ecuDecode_notSelected u off len hnone]
    exact pureFailure_raise opDecEcuInfo s (.ecuLayoutNotSelected layout)
  · rw [ecuDecode_tooShort (s := u) hlayout off hshort,
      ← errorDetail_ecuInfoPayloadTooShort (n := len) (Nat.mod_lt _ (by omega))]
    exact pureFailure_raise opDecEcuInfo s (.ecuInfoPayloadTooShort len)
  · have htexts : ecuTexts u.regs.cfg.ecuLayout (rxBytes u off len) = texts :=
      congrArg (ecuTexts layout) (rxBytes_congr rfl rfl off len)
    have hheld := outbufHolds_putEcuFields u off hlong
    rw [htexts] at hheld
    rw [ecuDecode_info (s := u) hlayout off hlong, htexts]
    exact ⟨pureSuccess_finish opDecEcuInfo s s.fout _ .ecuInfo _ _ _ _, rfl, hheld,
      sameBytesOutside_putEcuFields u off⟩

/-- Settles O28: the bytes before the first NUL are the text, whatever follows it. -/
theorem asciiCleanTruncatesThenDrops : Obligations.AsciiCleanTruncatesThenDrops := by
  intro u rest hu hrest
  have htext : (u ++ rest).takeWhile (fun c => c != 0) = u ++ rest.takeWhile (fun c => c != 0) :=
    List.takeWhile_append_of_pos fun b hb => by simpa using hu b hb
  have hafter : rest.takeWhile (fun c => c != 0) = [] := by
    obtain rfl | ⟨tail, rfl⟩ := hrest <;> simp
  rw [asciiClean, htext, hafter, List.append_nil]

/-- Settles O29: the eight bytes stored are the bytes of the four fields. -/
theorem encThresholdsWritesFourLittleEndianFields : Obligations.EncThresholdsWritesFourLittleEndianFields := by
  intro s hidle a0 a1
  refine ⟨_, rfl, ?_⟩
  rw [command_accepted hidle rfl]
  refine ⟨pureSuccess_finish opEncThresholds s s.fout _ .bytes _ _ _ _, rfl,
    sameBytesOutside_storeAt (s := s) (t := s) (fun _ _ => rfl) (by omega) le_rfl, ?_, ?_, ?_, ?_⟩
    <;> rw [txByte_encThresholdsRule _ (by omega), txByte_encThresholdsRule _ (by omega)]
  · exact lowField_bytes s.regs.arg0
  · exact highField_bytes s.regs.arg0
  · exact lowField_bytes s.regs.arg1
  · exact highField_bytes s.regs.arg1

/-- Settles O31: the digits of `hex_upper` one by one, then each lookup's text. -/
theorem lookupsWriteTheirText : Obligations.LookupsWriteTheirText := by
  refine ⟨fun v w => ⟨hexUpper_length v w, fun k hk => ?_⟩, fun s hidle => ?_⟩
  · rw [hexUpper_getD v hk, hexDigit_toNat (Nat.mod_lt _ (by omega))]
  · intro ascii code status result
    have hlookup : ∀ o entry miss, miss.length ≤ 256 →
        result o entry miss (textResult (describe entry miss) (accept o s)) := fun o entry miss hmiss => by
      cases entry with
      | none => exact textResult_outcome o s false hmiss
      | some d => exact textResult_outcome o s true (d.le64.trans (by omega))
    have hcode : ascii "unknown code 0x" = unknownCode := by decide
    have hstatus : ascii "unknown status 0x" = unknownStatus := by decide
    refine ⟨⟨_, rfl, ?_⟩, ⟨_, rfl, ?_⟩⟩ <;> rw [command_accepted hidle rfl]
    · rw [hcode]
      exact hlookup opLutDtc (Config.dtcText code) (unknownCode ++ hexUpper code.toNat 6) (by simp [unknownCode])
    · rw [hstatus]
      exact hlookup opLutStatus (Config.statusText status) (unknownStatus ++ hexUpper status.toNat 2)
        (by simp [unknownStatus])

end Sys2Proof.Machine
end

section
/-! The proof of the statement about how a command ends with a result: what `finish` writes and what it leaves. -/

namespace Sys2Proof.Machine

/-! ### The end with a result (60_exceptions.md R411) -/

theorem succeeded_finish (k : ResKind) (r0 r1 r2 r3 : Word32) (s : State) :
    Succeeded (finish k r0 r1 r2 r3 s) (resKindCode k) r0 r1 r2 r3 where
  done := by rw [finish_status]
  err := by rw [finish_status]
  errcode := by rw [finish_status]
  res := finish_res k r0 r1 r2 r3 s
  ctl := finish_ctl k r0 r1 r2 r3 s
  port := by rw [finish_port]
  tmr := by rw [finish_timer]
  lim := by rw [finish_timer]

/-- Of STATUS, CMD_REJECTED stays, and of the timer the window computed at acceptance. -/
theorem flightFrame_finish (k : ResKind) (r0 r1 r2 r3 : Word32) (s : State) :
    FlightFrame s (finish k r0 r1 r2 r3 s) where
  regs := finish_regs k r0 r1 r2 r3 s
  fout := finish_fout k r0 r1 r2 r3 s
  env := finish_env k r0 r1 r2 r3 s
  op := finish_op k r0 r1 r2 r3 s
  didCur := finish_didCur k r0 r1 r2 r3 s
  respLim := by rw [finish_timer]
  cmdRejected := by rw [finish_status]

theorem sameBytes_finish (k : ResKind) (r0 r1 r2 r3 : Word32) (s : State) :
    sameBytes s (finish k r0 r1 r2 r3 s) :=
  sameBytes_of (finish_mem k r0 r1 r2 r3 s) (finish_draws k r0 r1 r2 r3 s)

/-! ### The statement -/

/-- Settles O16: what `finish` writes, then the rest of the state field by field. -/
theorem finishWritesTheResultsAndReturnsToIdle : Obligations.FinishWritesTheResultsAndReturnsToIdle := by
  intro k r0 r1 r2 r3 s t
  have herrDetail : t.status.errDetail = s.status.errDetail := by rw [finish_status]
  have hframe : t.port.frame = s.port.frame := by rw [finish_port]
  exact ⟨succeeded_finish k r0 r1 r2 r3 s, flightFrame_finish k r0 r1 r2 r3 s, herrDetail,
    finish_rxLen k r0 r1 r2 r3 s, finish_tx k r0 r1 r2 r3 s, finish_rasm k r0 r1 r2 r3 s, hframe,
    finish_draws k r0 r1 r2 r3 s, sameBytes_finish k r0 r1 r2 r3 s⟩

end Sys2Proof.Machine
end

section
/-! The proofs of the round trips between instructions and their encodings: command words, frames and payloads. -/

namespace Sys2Proof.Machine

/-! ### The PCI byte (20_memory.md R88) -/

theorem pciByte_div (t x : BitVec 4) : (pciByte t x).toNat / 16 = t.toNat := by
  have hx := x.isLt
  rw [pciByte_toNat]
  omega

theorem pciByte_mod (t x : BitVec 4) : (pciByte t x).toNat % 16 = x.toNat := by
  have hx := x.isLt
  rw [pciByte_toNat]
  omega

@[simp] theorem pciByte_param (t x : BitVec 4) : (pciByte t x).extractLsb' 0 4 = x := by
  apply BitVec.eq_of_toNat_eq
  rw [pciParam_toNat, pciByte_mod]

/-- A byte 0 is put together from its type and its low nibble. -/
theorem eq_pciByte {b : Byte} {t : BitVec 4} (ht : b.toNat / 16 = t.toNat) : b = pciByte t (b.extractLsb' 0 4) := by
  apply BitVec.eq_of_toNat_eq
  rw [pciByte_toNat, pciParam_toNat]
  omega

theorem totalHigh_append_low (total : BitVec 12) : total.extractLsb' 8 4 ++ total.extractLsb' 0 8 = total := by
  have ht := total.isLt
  have hlow : (total.extractLsb' 0 8).toNat = total.toNat % 2 ^ 8 := by simp
  apply BitVec.eq_of_toNat_eq
  rw [BitVec.toNat_append, ← Nat.shiftLeft_add_eq_or_of_lt (total.extractLsb' 0 8).isLt, totalHigh_toNat, hlow,
    Nat.shiftLeft_eq]
  omega

theorem totalHigh_append (x : BitVec 4) (b : Byte) : (x ++ b : BitVec 12).extractLsb' 8 4 = x := by
  have hb := b.isLt
  apply BitVec.eq_of_toNat_eq
  rw [totalHigh_toNat, BitVec.toNat_append, ← Nat.shiftLeft_add_eq_or_of_lt hb, Nat.shiftLeft_eq]
  omega

theorem totalLow_append (x : BitVec 4) (b : Byte) : (x ++ b : BitVec 12).extractLsb' 0 8 = b := by
  have hb := b.isLt
  apply BitVec.eq_of_toNat_eq
  rw [BitVec.extractLsb'_toNat, BitVec.toNat_append, ← Nat.shiftLeft_add_eq_or_of_lt hb, Nat.shiftLeft_eq]
  omega

theorem flowStatusOf_code (fs : FlowStatus) : flowStatusOf fs.code = some fs := by
  cases fs <;> rfl

theorem code_of_flowStatusOf {x : BitVec 4} {fs : FlowStatus} (h : flowStatusOf x = some fs) : fs.code = x := by
  revert x fs
  decide

/-! ### What the encodings classify as (30_encoding.md R121 to R124, 41_frame_codec.md R209) -/

section
variable {f : Frame}

theorem classifyFrame_single {n : Nat} {rest : List Byte} (h : f.data = pciByte 0 (BitVec.ofNat 4 n) :: rest)
    (hn : n ≤ 7) (hlen : n ≤ rest.length) : classifyFrame f = .single n := by
  have hparam : (pciByte 0 (BitVec.ofNat 4 n)).toNat % 16 = n := by
    rw [pciByte_mod, BitVec.toNat_ofNat]
    omega
  have hdlc : f.dlc = rest.length + 1 := by rw [Frame.dlc, h, List.length_cons]
  rw [classifyFrame_sf h (pciByte_div 0 _), hparam, if_neg (by omega)]

theorem classifyFrame_first {total : BitVec 12} {six : List Byte}
    (h : f.data = pciByte 1 (total.extractLsb' 8 4) :: total.extractLsb' 0 8 :: six) (hlen : six.length = 6) :
    classifyFrame f = .first total := by
  have hdlc : f.dlc = 8 := by rw [Frame.dlc, h, List.length_cons, List.length_cons, hlen]
  have hbyte : f.byte 1 = total.extractLsb' 0 8 := by rw [Frame.byte, h]; rfl
  rw [classifyFrame_ff h (pciByte_div 1 _), if_neg (by omega), hbyte, pciByte_param, totalHigh_append_low]

theorem classifyFrame_consecutive {sn : BitVec 4} {rest : List Byte} (h : f.data = pciByte 2 sn :: rest) :
    classifyFrame f = .consecutive sn := by
  rw [classifyFrame_cf h (pciByte_div 2 _), pciByte_param]

theorem classifyFrame_flowControl {fs : FlowStatus} {bs st : Byte} {rest : List Byte}
    (h : f.data = pciByte 3 fs.code :: bs :: st :: rest) : classifyFrame f = .flowControl fs bs st := by
  have hdlc : ¬ f.dlc < 3 := by simp [Frame.dlc, h]
  have hbs : f.byte 1 = bs := by rw [Frame.byte, h]; rfl
  have hst : f.byte 2 = st := by rw [Frame.byte, h]; rfl
  rw [classifyFrame_fc h (pciByte_div 3 _), if_neg hdlc, pciByte_param, flowStatusOf_code, hbs, hst]
  rfl

variable (f) in
/-- Everything the classifier can answer, and the bytes of the frame for each answer. -/
theorem classifyFrame_cases :
    classifyFrame f = .malformed ∨
    (∃ n rest, f.data = pciByte 0 (BitVec.ofNat 4 n) :: rest ∧ n ≤ 7 ∧ n ≤ rest.length ∧
      classifyFrame f = .single n) ∨
    (∃ total six, f.data = pciByte 1 (total.extractLsb' 8 4) :: total.extractLsb' 0 8 :: six ∧ six.length = 6 ∧
      classifyFrame f = .first total) ∨
    (∃ sn rest, f.data = pciByte 2 sn :: rest ∧ classifyFrame f = .consecutive sn) ∨
    (∃ fs bs st rest, f.data = pciByte 3 (FlowStatus.code fs) :: bs :: st :: rest ∧
      classifyFrame f = .flowControl fs bs st) := by
  by_cases hbad : classifyFrame f = .malformed
  · exact .inl hbad
  refine .inr ?_
  have hlen8 := f.le8
  match hd : f.data with
  | [] => exact absurd (classifyFrame_empty hd) hbad
  | b0 :: rest =>
    rw [classifyFrame_eq_malformed_iff hd] at hbad
    rw [hd, List.length_cons] at hbad hlen8
    have hb0 := b0.isLt
    have htype : b0.toNat / 16 = 0 ∨ b0.toNat / 16 = 1 ∨ b0.toNat / 16 = 2 ∨ b0.toNat / 16 = 3 := by omega
    obtain ht | ht | ht | ht := htype
    · have hb : b0 = pciByte 0 (BitVec.ofNat 4 (b0.toNat % 16)) := by
        rw [← pciParam_toNat, BitVec.ofNat_toNat, BitVec.setWidth_eq]
        exact eq_pciByte ht
      rw [hb] at hd
      exact .inl ⟨_, rest, congrArg (· :: rest) hb, by omega, by omega,
        classifyFrame_single hd (by omega) (by omega)⟩
    · match rest, hd, hlen8, hbad with
      | [], _, _, hbad => exact absurd (.inr (.inr (.inl ⟨ht, by simp⟩))) hbad
      | b1 :: six, hd, hlen8, hbad =>
        have hb : b0 = pciByte 1 ((b0.extractLsb' 0 4 ++ b1 : BitVec 12).extractLsb' 8 4) := by
          rw [totalHigh_append]
          exact eq_pciByte ht
        have hdata : f.data = pciByte 1 ((b0.extractLsb' 0 4 ++ b1 : BitVec 12).extractLsb' 8 4) ::
            (b0.extractLsb' 0 4 ++ b1 : BitVec 12).extractLsb' 0 8 :: six := by
          rw [totalLow_append, ← hb, hd]
        rw [List.length_cons] at hlen8 hbad
        exact .inr (.inl ⟨_, six, hd ▸ hdata, by omega, classifyFrame_first hdata (by omega)⟩)
    · have hb : b0 = pciByte 2 (b0.extractLsb' 0 4) := eq_pciByte ht
      rw [hb] at hd
      exact .inr (.inr (.inl ⟨_, rest, congrArg (· :: rest) hb, classifyFrame_consecutive hd⟩))
    · match rest, hd, hbad with
      | [], _, hbad => exact absurd (.inr (.inr (.inr ⟨ht, .inl (by simp)⟩))) hbad
      | [_], _, hbad => exact absurd (.inr (.inr (.inr ⟨ht, .inl (by simp)⟩))) hbad
      | bs :: st :: rest, hd, hbad =>
        have hvalid : flowStatusOf (b0.extractLsb' 0 4) ≠ none := by
          rw [Ne, flowStatusOf_eq_none_iff, pciParam_toNat]
          omega
        obtain ⟨fs, hfs⟩ := Option.ne_none_iff_exists'.mp hvalid
        have hb : b0 = pciByte 3 fs.code := by
          rw [code_of_flowStatusOf hfs]
          exact eq_pciByte ht
        rw [hb] at hd
        exact .inr (.inr (.inr ⟨fs, bs, st, rest, by rw [hb], classifyFrame_flowControl hd⟩))

/-! ### What the encodings decode to -/

theorem decodeFrame_single {p padding : List Byte}
    (h : f.data = pciByte 0 (BitVec.ofNat 4 p.length) :: (p ++ padding)) (hlen : p.length ≤ 7) :
    decodeFrame f = .ok (.pciSf f.id p padding) := by
  rw [decodeFrame, classifyFrame_single h hlen (by simp), h]
  simp [Nat.add_comm 1]

theorem decodeFrame_first {total : BitVec 12} {six : List Byte}
    (h : f.data = pciByte 1 (total.extractLsb' 8 4) :: total.extractLsb' 0 8 :: six) (hlen : six.length = 6) :
    decodeFrame f = .ok (.pciFf f.id total six) := by
  rw [decodeFrame, classifyFrame_first h hlen, h]
  simp [← hlen]

theorem decodeFrame_consecutive {sn : BitVec 4} {d : List Byte} (h : f.data = pciByte 2 sn :: d) :
    decodeFrame f = .ok (.pciCf f.id sn d) := by
  rw [decodeFrame, classifyFrame_consecutive h, h]
  rfl

theorem decodeFrame_flowControl {fs : FlowStatus} {bs st : Byte} {padding : List Byte}
    (h : f.data = pciByte 3 fs.code :: bs :: st :: padding) :
    decodeFrame f = .ok (.pciFc f.id fs bs st padding) := by
  rw [decodeFrame, classifyFrame_flowControl h, h]
  rfl

end

/-- Everything the frame decoder can answer, and the bytes of the frame for each answer. -/
theorem decodeFrame_cases (f : Frame) :
    (classifyFrame f = .malformed ∧ decodeFrame f = .error .malformedFrame) ∨
    (∃ p padding, f.data = pciByte 0 (BitVec.ofNat 4 p.length) :: (p ++ padding) ∧ p.length ≤ 7 ∧
      decodeFrame f = .ok (.pciSf f.id p padding)) ∨
    (∃ total six, f.data = pciByte 1 (total.extractLsb' 8 4) :: total.extractLsb' 0 8 :: six ∧ six.length = 6 ∧
      decodeFrame f = .ok (.pciFf f.id total six)) ∨
    (∃ sn d, f.data = pciByte 2 sn :: d ∧ decodeFrame f = .ok (.pciCf f.id sn d)) ∨
    (∃ fs bs st padding, f.data = pciByte 3 (FlowStatus.code fs) :: bs :: st :: padding ∧
      decodeFrame f = .ok (.pciFc f.id fs bs st padding)) := by
  obtain hbad | ⟨n, rest, hd, hn, hlen, -⟩ | ⟨total, six, hd, hlen, -⟩ | ⟨sn, d, hd, -⟩ | ⟨fs, bs, st, padding, hd, -⟩ :=
    classifyFrame_cases f
  · exact .inl ⟨hbad, by rw [decodeFrame, hbad]⟩
  · have htake : (rest.take n).length = n := List.length_take_of_le hlen
    have hdata : f.data = pciByte 0 (BitVec.ofNat 4 (rest.take n).length) :: (rest.take n ++ rest.drop n) := by
      rw [htake, List.take_append_drop, hd]
    exact .inr (.inl ⟨_, _, hdata, htake.symm ▸ hn, decodeFrame_single hdata (htake.symm ▸ hn)⟩)
  · exact .inr (.inr (.inl ⟨total, six, hd, hlen, decodeFrame_first hd hlen⟩))
  · exact .inr (.inr (.inr (.inl ⟨sn, d, hd, decodeFrame_consecutive hd⟩)))
  · exact .inr (.inr (.inr (.inr ⟨fs, bs, st, padding, hd, decodeFrame_flowControl hd⟩)))

theorem frameOf_of_data {f : Frame} {bytes : List Byte} (h : f.data = bytes) : frameOf f.id bytes = f := by
  obtain ⟨id, data, hle⟩ := f
  subst h
  simp only [frameOf, List.take_of_length_le hle]

/-- The bytes of a built frame are the meaningful ones, then the padding, if any (30_encoding.md R128). -/
theorem mkFrame_data (r : HostRegs) {bytes : List Byte} (h : bytes.length ≤ 8) :
    (mkFrame r bytes).data =
      bytes ++ if r.cfg.padEn then List.replicate (8 - bytes.length) r.cfg.padByte else [] := by
  cases hp : r.cfg.padEn
  · simp [mkFrame_data_unpadded hp h]
  · simp [mkFrame_data_padded hp h]

/-! ### What the payloads decode to (30_encoding.md R135, R136, R137) -/

theorem hi8_append_lo8 (d : BitVec 16) : hi8 d ++ lo8 d = d := by
  have hlo : (lo8 d).toNat < 2 ^ 8 := (lo8 d).isLt
  apply BitVec.eq_of_toNat_eq
  rw [BitVec.toNat_append, ← Nat.shiftLeft_add_eq_or_of_lt hlo, Nat.shiftLeft_eq, Nat.add_comm, lo8_add_hi8]

theorem decodeRequest_writeDid (hi lo : Byte) {data : List Byte} (h : data.length ≤ 4092) :
    decodeRequest (sidWriteDid :: hi :: lo :: data) = .ok (.reqWriteDid (hi ++ lo) data) := if_pos h

/-- A payload of legal length that starts with the SID of a response row is that response. -/
theorem decodeResponse_of_sid {sid : Byte} {rest : List Byte} {i : Instr} (h : 1 + rest.length ≤ 4095)
    (hrow : (sid, i) ∈ [(positiveSid sidReadDid, .rspReadDid rest), (positiveSid sidWriteDid, .rspWriteDid rest),
      (positiveSid sidReadDtc, .rspReadDtc rest), (positiveSid sidClearDtc, .rspClearDtc rest),
      (sidNegative, .rspNegative rest)]) : decodeResponse (sid :: rest) = .ok i := by
  rw [decodeResponse, if_neg (by omega)]
  simp only [List.mem_cons, Prod.mk.injEq, List.not_mem_nil, or_false] at hrow
  obtain ⟨rfl, rfl⟩ | ⟨rfl, rfl⟩ | ⟨rfl, rfl⟩ | ⟨rfl, rfl⟩ | ⟨rfl, rfl⟩ := hrow <;> rfl

/-! ### The statements -/

/-- Settles O1, constructor by constructor: a command word by evaluation, a frame by its type, a payload by its SID. -/
theorem encodedInstructionDecodesToItself : Obligations.EncodedInstructionDecodesToItself := by
  intro i hwf
  cases i with
  | encSf | encFf | encCf | encFc | classify | tpRecv | tpSend | readDid | writeDid | readDtc | clearDtc | decEcuInfo
  | decSensor | encThresholds | decDtcList | lutDtc | lutStatus => rfl
  | pciSf id payload padding =>
    simp only [Instr.wellFormed, Bool.and_eq_true, decide_eq_true_eq] at hwf
    exact decodeFrame_single (frameOf_data id (by simp; omega)) hwf.1
  | pciFf id total six =>
    have hsix : six.length = 6 := by simpa [Instr.wellFormed] using hwf
    exact decodeFrame_first (frameOf_data id (by simp; omega)) hsix
  | pciCf id sn data =>
    have hdata : data.length ≤ 7 := by simpa [Instr.wellFormed] using hwf
    exact decodeFrame_consecutive (frameOf_data id (by simp; omega))
  | pciFc id fs bs st padding =>
    have hpadding : padding.length ≤ 5 := by simpa [Instr.wellFormed] using hwf
    exact decodeFrame_flowControl (frameOf_data id (by simp; omega))
  | reqReadDid did => exact congrArg (fun d => Except.ok (Instr.reqReadDid d)) (hi8_append_lo8 did)
  | reqWriteDid did data =>
    have hdata : data.length ≤ 4092 := by simpa [Instr.wellFormed] using hwf
    rw [encode, decode, decodeRequest_writeDid _ _ hdata, hi8_append_lo8]
  | reqReadDtc sub mask => rfl
  | reqClearDtc group => rfl
  | rspReadDid rest | rspWriteDid rest | rspReadDtc rest | rspClearDtc rest | rspNegative rest =>
    exact decodeResponse_of_sid (by simpa [Instr.wellFormed] using hwf) (by simp)

/-- Settles O2, by the cases of the decoder. -/
theorem decodedFrameIsWellFormedAndEncodesBack : Obligations.DecodedFrameIsWellFormedAndEncodesBack := by
  intro f i h
  have hle := f.le8
  obtain ⟨-, he⟩ | ⟨p, padding, hd, hp, he⟩ | ⟨total, six, hd, hsix, he⟩ | ⟨sn, d, hd, he⟩ |
    ⟨fs, bs, st, padding, hd, he⟩ := decodeFrame_cases f <;> rw [he] at h <;> cases h
  all_goals
    refine ⟨?_, congrArg Code.frame (frameOf_of_data hd)⟩
    rw [hd] at hle
    simp only [List.length_cons, List.length_append] at hle
    simp only [Instr.wellFormed, Bool.and_eq_true, decide_eq_true_eq, beq_iff_eq]
    omega

/-- Settles O4: the identifier is no part of the classifier, and each answer names its bytes. -/
theorem classifiedParametersAreTheFramesFields : Obligations.ClassifiedParametersAreTheFramesFields := by
  refine ⟨fun id id' d h => rfl, fun f b0 rest hdata => ?_⟩
  obtain hc | ⟨n, tail, hd, hn, -, hc⟩ | ⟨total, six, hd, -, hc⟩ | ⟨sn, tail, hd, hc⟩ | ⟨fs, bs, st, tail, hd, hc⟩ :=
    classifyFrame_cases f
  · simp [hc]
  all_goals
    rw [hc, hdata]
    rw [hdata] at hd
    cases hd
  · have hparam : (BitVec.ofNat 4 n).toNat = n := by rw [BitVec.toNat_ofNat]; omega
    simp [pciByte_div, pciByte_mod, hparam]
  · refine ⟨nofun, fun t ht => ?_, nofun, nofun⟩
    have hlow : (total.extractLsb' 0 8).toNat = total.toNat % 256 := by simp
    cases ht
    rw [pciByte_div, pciByte_mod, totalHigh_toNat, List.getD_cons_succ, List.getD_cons_zero, hlow]
    exact ⟨rfl, by omega⟩
  · simp [pciByte_div, pciByte_mod]
  · simp [pciByte_div, pciByte_mod]

/-- Settles O25: the bytes of each built frame, with its padding, are those of the encoding it decodes from. -/
theorem builtFramesDecodeToWhatTheyCarry : Obligations.BuiltFramesDecodeToWhatTheyCarry := by
  intro r pad
  refine ⟨fun p hp => ?_, fun total six hsix => ?_, fun sn d hd => ?_, fun fs bs st => ?_⟩
  · have hdata := mkFrame_data r (bytes := pciByte 0 (BitVec.ofNat 4 p.length) :: p) (by simp; omega)
    rw [List.length_cons, Nat.add_sub_add_right 7 1] at hdata
    rw [sfFrame, decodeFrame_single hdata hp, mkFrame_id]
  · have hdata := mkFrame_data r (bytes := pciByte 1 (total.extractLsb' 8 4) :: total.extractLsb' 0 8 :: six)
      (by simp; omega)
    simp only [List.length_cons, hsix, Nat.sub_self, List.replicate_zero, ite_self, List.append_nil] at hdata
    rw [ffFrame, decodeFrame_first hdata hsix, mkFrame_id]
  · have hdata := mkFrame_data r (bytes := pciByte 2 sn :: d) (by simp; omega)
    rw [List.length_cons, Nat.add_sub_add_right 7 1] at hdata
    rw [cfFrame, decodeFrame_consecutive hdata, mkFrame_id]
    rfl
  · have hdata := mkFrame_data r (bytes := [pciByte 3 fs.code, bs, st]) (by simp)
    rw [fcFrame, decodeFrame_flowControl hdata, mkFrame_id]
    rfl

/-- Settles O6, by evaluation of the decoder on each word. -/
theorem writtenOutWordsDecode : Obligations.WrittenOutWordsDecode := by
  refine ⟨?_, ?_, ?_, ?_, ?_, ?_, ?_, ?_, ?_, ?_, ?_, ?_⟩ <;> decide

end Sys2Proof.Machine
end

section
/-! The proofs of the statements about starting to send and to receive: the bus start, the first frame of a payload, the
request rows and the commands that run them. -/

namespace Sys2Proof.Machine

/-! ### The bus start (40_command_interface.md R175, R177) -/

theorem windowUnits_eq (r : HostRegs) :
    windowUnits r = if r.arg3.toNat % 256 ≠ 0 then r.arg3.toNat % 256 else r.defTimeout.toNat := by
  have hzero : argTimeout r ≠ 0 ↔ r.arg3.toNat % 256 ≠ 0 := by
    rw [Ne, ← BitVec.toNat_inj, argTimeout_toNat]
    rfl
  simp only [windowUnits, hzero, argTimeout_toNat]

theorem sessionInitialised_busInit (o : BitVec 8) (s : State) : SessionInitialised s (busInit (accept o s)) where
  rxLen := rfl
  rasm := rfl
  tmr := rfl
  respLim := by rw [busInit_timer, accept_regs, sat32_toNat, windowUnits_eq]
  txSeq := rfl
  txCounts := ⟨rfl, rfl, rfl, rfl, rfl⟩

/-- A start rule that changes no more than a request row leaves the bus started. -/
theorem busStarted_of_requestFrame {o : BitVec 8} {s t : State} (h : RequestFrame (busInit (accept o s)) t)
    (hb : sameBytes (busInit (accept o s)) t) : BusStarted o s t where
  rxLen := h.rxLen
  rasm := h.rasm
  tmr := by rw [h.timer]; rfl
  respLim := by rw [h.timer]; exact (sessionInitialised_busInit o s).respLim
  txSeq := by rw [h.tx]; rfl
  txCounts := by rw [h.tx]; exact ⟨rfl, rfl, rfl, rfl, rfl⟩
  regs := h.regs
  fout := h.fout
  env := h.env
  draws := h.draws
  bytes := sameBytes_trans (sameBytes_of rfl rfl) hb
  op := h.op
  status := h.status
  res := h.res

/-- Every bus command is a command request whose rule is a bus start; TP_SEND and WRITE_DID, the
second and the fourth, check their length. -/
theorem exec_of_mem_busCommands {i : Instr} (h : i ∈ busCommands) :
    ∃ o argsOk start, (∀ s, exec i s = .next (command o argsOk (busStart start) s)) ∧
      ∀ r : HostRegs, (i = .tpSend → r.arg2.toNat % 65536 ≤ 4095) → (i = .writeDid → r.arg2.toNat % 65536 ≤ 4092) →
        argsOk r = true := by
  fin_cases h
  · exact ⟨_, _, _, fun _ => rfl, fun _ _ _ => rfl⟩
  · exact ⟨_, _, _, fun _ => rfl, fun r hlen _ => by simpa [tpSendArgsOk, argLen_eq] using hlen⟩
  · exact ⟨_, _, _, fun _ => rfl, fun _ _ _ => rfl⟩
  · exact ⟨_, _, _, fun _ => rfl, fun r _ hlen => by simpa [writeDidArgsOk, argLen_eq] using hlen⟩
  all_goals exact ⟨_, _, _, fun _ => rfl, fun _ _ _ => rfl⟩

/-- After the bus start nothing is left of an earlier session but what the start keeps. -/
theorem busInit_accept_congr (o : BitVec 8) {s t : State} (hregs : t.regs = s.regs) (hmem : t.mem = s.mem)
    (hdraws : t.draws = s.draws) (hfout : t.fout = s.fout) (henv : t.env = s.env) (hport : t.port = s.port)
    (hdid : t.didCur = s.didCur) (hhdr : t.tx.hdr = s.tx.hdr) (hctl : t.ctl = s.ctl) :
    busInit (accept o t) = busInit (accept o s) := by
  simp only [busInit, accept, hregs, hmem, hdraws, hfout, henv, hport, hdid, hhdr, hctl]

/-! ### The first frame of a payload (43_transmitter.md R280 to R283) -/

/-- `tx_start` writes the position, the control state and the TX port. -/
theorem txStart_eq (s : State) :
    ∃ pos c p, txStart s = { s with tx := { s.tx with pos := pos }, ctl := c, port := p } := by
  unfold txStart
  split <;> exact ⟨_, _, _, rfl⟩

theorem pbytes_zero {s : State} {p : List Byte} (hp : ∀ i, i < p.length → payloadByte s i = p.getD i 0) {n : Nat}
    (hn : n ≤ p.length) : pbytes s 0 n = p.take n := by
  apply List.ext_getElem
  · simp [pbytes, hn]
  · intro i hi _
    have hin : i < n := by simpa [pbytes] using hi
    simp [pbytes, hp i (by omega), hin.trans_le hn]

/-- The Transmitter presents the first frame of the payload its header and TXBUF hold. -/
theorem presentsPayload_txStart {s : State} {r : HostRegs} {p : List Byte} (hregs : s.regs = r)
    (hlen : s.tx.len.toNat = p.length) (hp : ∀ i, i < p.length → payloadByte s i = p.getD i 0) :
    PresentsPayload r (txStart s) p := by
  subst hregs
  have hmax := s.tx.len.isLt
  have hle7 : s.tx.len.toNat ≤ 7 ↔ p.length ≤ 7 := by rw [hlen]
  refine ⟨?_, ?_, fun i hi => ?_, fun hshort => ?_, fun hlong => ?_⟩
  · unfold txStart
    split <;> rfl
  · obtain ⟨pos, c, port, he⟩ := txStart_eq s
    rw [he]
    exact hlen
  · obtain ⟨pos, c, port, he⟩ := txStart_eq s
    rw [he, ← hp i hi]
    exact payloadByte_congr (sameBytes_of rfl rfl) rfl rfl i
  · rw [txStart, if_pos (hle7.mpr hshort), hlen, pbytes_zero hp le_rfl, List.take_length, sfFrame_eq _ hshort]
    exact ⟨rfl, hlen, rfl⟩
  · have htotal : s.tx.len = BitVec.ofNat 12 p.length := by rw [← hlen, BitVec.ofNat_toNat, BitVec.setWidth_eq]
    have hsix : (p.take 6).length = 6 := List.length_take_of_le (by omega)
    rw [txStart, if_neg (by omega), pbytes_zero hp (by omega), htotal, ffFrame_eq _ (by omega) hsix]
    exact ⟨rfl, rfl, rfl⟩

/-! ### The request rows (44_uds_session.md R322, R326, R330, R334) -/

/-- The header and the payload length written before `tx_start`. -/
def withPayload (hdr : List Byte) (hdrLen : BitVec 2) (len : BitVec 12) (s : State) : State :=
  { s with tx := { s.tx with hdr := hdr, hdrLen := hdrLen, len := len } }

theorem sendRequest_eq (header : List Byte) (n : Nat) (s : State) :
    sendRequest header n s =
      txStart (withPayload header (BitVec.ofNat 2 header.length) (BitVec.ofNat 12 (header.length + n)) s) := rfl

theorem tpSendStart_eq (s : State) :
    tpSendStart s = txStart (withPayload s.tx.hdr 0 (BitVec.ofNat 12 (argLen s.regs)) s) := rfl

/-- What is left alone when a first frame is presented, with the DID and the payload just written. -/
theorem requestFrame_txStart (hdr : List Byte) (hdrLen : BitVec 2) (len : BitVec 12) (s : State) (d : Did) :
    let t := txStart (withPayload hdr hdrLen len { s with didCur := d })
    RequestFrame s t ∧ sameBytes s t ∧ t.didCur = d ∧ t.tx.hdr = hdr ∧ t.tx.hdrLen = hdrLen := by
  obtain ⟨pos, c, p, he⟩ := txStart_eq (withPayload hdr hdrLen len { s with didCur := d })
  rw [he]
  exact ⟨⟨rfl, rfl, rfl, rfl, rfl, rfl, rfl, rfl, rfl, rfl, rfl⟩, sameBytes_of rfl rfl, rfl, rfl, rfl⟩

theorem requestFrame_sendRequest (header : List Byte) (n : Nat) (s : State) (d : Did) :
    let t := sendRequest header n { s with didCur := d }
    RequestFrame s t ∧ sameBytes s t ∧ t.didCur = d := by
  obtain ⟨hframe, hbytes, hdid, -⟩ := requestFrame_txStart header (BitVec.ofNat 2 header.length)
    (BitVec.ofNat 12 (header.length + n)) s d
  exact ⟨hframe, hbytes, hdid⟩

/-- A request is its header followed by the data in TXBUF (10_state.md R58). -/
theorem presentsPayload_sendRequest {header : List Byte} (hheader : header.length ≤ 3) {n : Nat}
    (hn : header.length + n ≤ 4095) (s : State) :
    PresentsPayload s.regs (sendRequest header n s) (header ++ txBytes s 0 n) := by
  rw [sendRequest_eq]
  refine presentsPayload_txStart ?_ ?_ ?_
  · rfl
  · simp [withPayload]
    omega
  · intro i hi
    have hhdrLen : header.length % 4 = header.length := by omega
    simp only [List.length_append, txBytes_length] at hi
    simp only [payloadByte, withPayload, BitVec.toNat_ofNat, hhdrLen, Nat.reducePow]
    split
    · next hin => rw [List.getD_append _ _ _ _ hin]
    · next hout =>
      rw [List.getD_append_right _ _ _ _ (by omega), txBytes_getD _ _ _ _ (by omega), Nat.zero_add]
      rfl

/-- The request of a header alone. -/
theorem presentsPayload_header {header : List Byte} (hheader : header.length ≤ 3) (s : State) :
    PresentsPayload s.regs (sendRequest header 0 s) header := by
  have h := presentsPayload_sendRequest hheader (n := 0) (by omega) s
  rwa [show txBytes s 0 0 = [] from rfl, List.append_nil] at h

theorem txBytes_storeTx (s : State) (bs : List Byte) : txBytes (storeTx s 0 bs) 0 bs.length = bs := by
  refine List.ext_getElem (txBytes_length _ _ _) fun i hi hbs => ?_
  rw [← List.getD_eq_getElem _ 0 hi, txBytes_getD _ _ _ _ hbs, ← List.getD_eq_getElem _ 0 hbs, Nat.zero_add]
  exact byteAt_storeAt_inside s txBase hbs

theorem sameBytesOutside_storeTx (s : State) (bs : List Byte) :
    sameBytesOutside txBase (txBase + bs.length) s (storeTx s 0 bs) :=
  sameBytesOutside_storeAt (fun _ _ => rfl) le_rfl le_rfl

/-! ### Storing what is already there -/

theorem sameBytes_storeTx_txBytes (s : State) (n : Nat) : sameBytes s (storeTx s 0 (txBytes s 0 n)) := fun a => by
  rw [byteAt_storeTx, txBytes_length]
  split
  · next hin =>
    have hoff : txBase + (0 + (a - (txBase + 0))) = a := by omega
    rw [txBytes_getD _ _ _ _ (by omega), txByte, hoff]
  · rfl

/-- How the buffers are listed makes no difference to the frame sent. -/
theorem txStart_listed {s : State} {m : List Host.Cell} (h : sameBytes s { s with mem := m }) :
    txStart { s with mem := m } = { txStart s with mem := m } := by
  have hbytes : ∀ i n, pbytes { s with mem := m } i n = pbytes s i n := fun i n =>
    List.map_congr_left fun j _ => payloadByte_congr h rfl rfl (i + j)
  by_cases hshort : s.tx.len.toNat ≤ 7
  · rw [txStart, txStart, if_pos hshort, if_pos hshort, hbytes]
    rfl
  · rw [txStart, txStart, if_neg hshort, if_neg hshort, hbytes]
    rfl

/-! ### How the bus commands start -/

section
variable {s : State} (hidle : s.ctl = .idle) (hready : s.env.busReady = true)
include hidle hready

/-- A bus command accepted with the bus ready and its arguments in range runs its start rule. -/
theorem command_busStart_ready {o : BitVec 8} {argsOk : HostRegs → Bool} {start : State → State}
    (hargs : argsOk s.regs = true) : command o argsOk (busStart start) s = start (busInit (accept o s)) := by
  rw [command_accepted hidle hargs, busStart_ready (s := accept o s) hready]

theorem exec_tpRecv_ready : exec .tpRecv s = .next (rasmStart (busInit (accept opTpRecv s))) :=
  congrArg Host.Outcome.next (command_busStart_ready hidle hready rfl)

theorem exec_tpSend_ready (hlen : s.regs.arg2.toNat % 65536 ≤ 4095) :
    exec .tpSend s = .next (tpSendStart (busInit (accept opTpSend s))) :=
  congrArg Host.Outcome.next (command_busStart_ready hidle hready (by simpa [tpSendArgsOk, argLen_eq] using hlen))

theorem exec_readDid_ready :
    exec .readDid s = .next (requestReadDid (s.regs.arg0.extractLsb' 0 16) (busInit (accept opReadDid s))) :=
  congrArg Host.Outcome.next (command_busStart_ready hidle hready rfl)

theorem exec_writeDid_ready (hlen : s.regs.arg2.toNat % 65536 ≤ 4092) :
    exec .writeDid s = .next (requestWriteDid (s.regs.arg0.extractLsb' 0 16) (s.regs.arg2.toNat % 65536)
      (busInit (accept opWriteDid s))) := by
  rw [← argLen_eq] at hlen ⊢
  exact congrArg Host.Outcome.next (command_busStart_ready hidle hready (decide_eq_true hlen))

theorem exec_readDtc_ready : exec .readDtc s = .next (requestReadDtc 0x02 0xFF (busInit (accept opReadDtc s))) :=
  congrArg Host.Outcome.next (command_busStart_ready hidle hready rfl)

theorem exec_clearDtc_ready : exec .clearDtc s = .next (requestClearDtc 0xFF (busInit (accept opClearDtc s))) :=
  congrArg Host.Outcome.next (command_busStart_ready hidle hready rfl)

end

/-- A request sent by a bus command leaves the bus started, its timer stopped. -/
theorem busStarted_sendRequest (o : BitVec 8) (s : State) (header : List Byte) (n : Nat) (d : Did) :
    let t := sendRequest header n { busInit (accept o s) with didCur := d }
    BusStarted o s t ∧ t.timer.lim = 0 ∧ t.didCur = d := by
  intro t
  obtain ⟨hframe, hbytes, hdid⟩ := requestFrame_sendRequest header n (busInit (accept o s)) d
  have hlim : t.timer.lim = 0 := by rw [hframe.timer]; rfl
  exact ⟨busStarted_of_requestFrame hframe hbytes, hlim, hdid⟩

/-! ### The statements -/

/-- Settles O13: the bus start runs before `bus_ready` is sampled, and the failure keeps what it wrote. -/
theorem busCommandFailsWhenTheBusIsNotReady : Obligations.BusCommandFailsWhenTheBusIsNotReady := by
  intro s i hidle hbus hi hsend hwrite
  obtain ⟨o, argsOk, start, hexec, hargs⟩ := exec_of_mem_busCommands hi
  have hinit := sessionInitialised_busInit o s
  refine ⟨_, hexec s, ?_⟩
  rw [command_accepted hidle (hargs s.regs hsend hwrite), busStart_notReady (s := accept o s) hbus]
  exact ⟨⟨rfl, rfl, rfl, rfl, rfl, rfl, rfl, rfl⟩, rfl,
    ⟨hinit.rxLen, hinit.rasm, rfl, hinit.respLim, hinit.txSeq, hinit.txCounts⟩, rfl, rfl, rfl, rfl, rfl, rfl,
    sameBytes_of rfl rfl⟩

/-- Settles O14: both states are one and the same after the bus start. -/
theorem busCommandDependsOnNoEarlierSession : Obligations.BusCommandDependsOnNoEarlierSession := by
  intro s t i hi hs ht hsend hwrite hregs hmem hdraws hfout henv hport hdid hhdr
  obtain ⟨o, argsOk, start, hexec, hargs⟩ := exec_of_mem_busCommands hi
  have hok := hargs s.regs hsend hwrite
  have hinit := busInit_accept_congr o hregs hmem hdraws hfout henv hport hdid hhdr (ht.trans hs.symm)
  have hready : (accept o t).env.busReady = (accept o s).env.busReady := congrArg Environment.busReady henv
  rw [hexec, hexec, command_accepted hs hok, command_accepted ht (hregs ▸ hok), busStart, busStart, hready, hinit]

/-- Settles O32: the start rule of TP_RECV writes the control state and the running timer only. -/
theorem tpRecvOpensTheResponseWindow : Obligations.TpRecvOpensTheResponseWindow := by
  intro s hidle hready
  have hinit := sessionInitialised_busInit opTpRecv s
  exact ⟨_, exec_tpRecv_ready hidle hready,
    ⟨⟨hinit.rxLen, hinit.rasm, rfl, hinit.respLim, hinit.txSeq, hinit.txCounts⟩, rfl, rfl, rfl, rfl,
      sameBytes_of rfl rfl, rfl, rfl, rfl⟩,
    rfl, rfl, rfl, rfl, rfl, rfl, rfl, rfl⟩

/-- Settles O33: the payload of TP_SEND is TXBUF alone, the header being empty. -/
theorem tpSendPresentsItsFirstFrame : Obligations.TpSendPresentsItsFirstFrame := by
  intro s hidle hready len hlen
  let u := busInit (accept opTpSend s)
  have hpresents : PresentsPayload s.regs (tpSendStart u) (txBytes s 0 len) := by
    rw [tpSendStart_eq]
    refine presentsPayload_txStart ?_ ?_ ?_
    · rfl
    · rw [txBytes_length, withPayload, BitVec.toNat_ofNat, busInit_regs, accept_regs, argLen_eq]
      exact Nat.mod_eq_of_lt (by omega)
    · intro i hi
      rw [txBytes_length] at hi
      rw [txBytes_getD _ _ _ _ hi, Nat.zero_add]
      rfl
  obtain ⟨hframe, hbytes, hdid, hhdr, hhdrLen⟩ :=
    requestFrame_txStart u.tx.hdr 0 (BitVec.ofNat 12 (argLen u.regs)) u u.didCur
  have hlim : (tpSendStart u).timer.lim = 0 := by rw [tpSendStart_eq, hframe.timer]; rfl
  exact ⟨_, exec_tpSend_ready hidle hready hlen, busStarted_of_requestFrame hframe hbytes, hpresents, hlim, hdid, hhdr,
    hhdrLen⟩

/-- Settles O34: each command sends its request on the state the bus start leaves. -/
theorem sessionCommandsPresentTheirRequests : Obligations.SessionCommandsPresentTheirRequests := by
  intro s hidle hready did hi lo len
  have hhi : hi8 did = hi := hi8_low16 s.regs.arg0
  have hlo : lo8 did = lo := lo8_low16 s.regs.arg0
  refine ⟨⟨_, exec_readDid_ready hidle hready, ?_⟩, fun hlen => ⟨_, exec_writeDid_ready hidle hready hlen, ?_⟩,
    ⟨_, exec_readDtc_ready hidle hready, ?_⟩, ⟨_, exec_clearDtc_ready hidle hready, ?_⟩⟩
  · obtain ⟨hstart, hlim, hdid⟩ := busStarted_sendRequest opReadDid s [sidReadDid, hi8 did, lo8 did] 0 did
    refine ⟨hstart, hlim, hdid, ?_⟩
    rw [← hhi, ← hlo]
    exact presentsPayload_header le_rfl { busInit (accept opReadDid s) with didCur := did }
  · obtain ⟨hstart, hlim, hdid⟩ := busStarted_sendRequest opWriteDid s [sidWriteDid, hi8 did, lo8 did] len did
    refine ⟨hstart, hlim, hdid, ?_⟩
    rw [← hhi, ← hlo]
    exact presentsPayload_sendRequest (header := [sidWriteDid, hi8 did, lo8 did]) le_rfl
      (by rw [List.length_cons, List.length_cons, List.length_singleton]; omega)
      { busInit (accept opWriteDid s) with didCur := did }
  · obtain ⟨hstart, hlim, hdid⟩ := busStarted_sendRequest opReadDtc s [sidReadDtc, 0x02, 0xFF] 0 s.didCur
    exact ⟨hstart, hlim, hdid, presentsPayload_header (header := [sidReadDtc, 0x02, 0xFF]) le_rfl
      (busInit (accept opReadDtc s))⟩
  · obtain ⟨hstart, hlim, hdid⟩ := busStarted_sendRequest opClearDtc s [sidClearDtc, 0xFF] 0 s.didCur
    exact ⟨hstart, hlim, hdid, presentsPayload_header (header := [sidClearDtc, 0xFF]) (Nat.le_succ 2)
      (busInit (accept opClearDtc s))⟩

/-- Settles O35: three rows send a header alone; REQ_WRITE_DID first stores the data that follow it. -/
theorem requestRowsPresentTheirPayload : Obligations.RequestRowsPresentTheirPayload := by
  intro s
  refine ⟨fun did => ⟨_, rfl, ?_⟩, fun did data hdata => ⟨_, rfl, ?_⟩, fun sub mask => ⟨_, rfl, ?_⟩,
    fun group => ⟨_, rfl, ?_⟩⟩
  · obtain ⟨hframe, hbytes, hdid⟩ := requestFrame_sendRequest [sidReadDid, hi8 did, lo8 did] 0 s did
    exact ⟨hframe, hbytes, hdid, presentsPayload_header (header := [sidReadDid, hi8 did, lo8 did]) le_rfl
      { s with didCur := did }⟩
  · let stored := storeTx s 0 data
    let header := [sidWriteDid, hi8 did, lo8 did]
    obtain ⟨hframe, hbytes, hdid⟩ := requestFrame_sendRequest header data.length stored did
    have hpresents := presentsPayload_sendRequest (header := header) (n := data.length) le_rfl
      (by simp only [header, List.length_cons, List.length_nil]; omega) { stored with didCur := did }
    have hdata : txBytes { stored with didCur := did } 0 data.length = data := txBytes_storeTx s data
    rw [hdata] at hpresents
    refine ⟨⟨hframe.regs, hframe.status, hframe.res, hframe.rxLen, hframe.fout, hframe.op, hframe.rasm, hframe.timer,
      hframe.env, hframe.draws, hframe.tx⟩, fun a ha => (hbytes a).trans (sameBytesOutside_storeTx s data a ha), ?_,
      hdid, hpresents⟩
    exact (txBytes_sameBytes hbytes 0 data.length).trans (txBytes_storeTx s data)
  · obtain ⟨hframe, hbytes, hdid⟩ := requestFrame_sendRequest [sidReadDtc, sub, mask] 0 s s.didCur
    exact ⟨hframe, hbytes, hdid, presentsPayload_header (header := [sidReadDtc, sub, mask]) le_rfl s⟩
  · obtain ⟨hframe, hbytes, hdid⟩ := requestFrame_sendRequest [sidClearDtc, group] 0 s s.didCur
    exact ⟨hframe, hbytes, hdid, presentsPayload_header (header := [sidClearDtc, group]) (Nat.le_succ 2) s⟩

/-- Settles O8: a command runs its row on the state the bus start leaves; storing the data of WRITE_DID where they
already are changes no byte. -/
theorem sessionCommandsRunTheirRequestRows : Obligations.SessionCommandsRunTheirRequestRows := by
  intro s hidle hready
  refine ⟨exec_readDid_ready hidle hready, exec_readDtc_ready hidle hready, exec_clearDtc_ready hidle hready,
    fun hlen => ?_⟩
  let u := busInit (accept opWriteDid s)
  let did : Did := s.regs.arg0.extractLsb' 0 16
  let n := s.regs.arg2.toNat % 65536
  let header := [sidWriteDid, hi8 did, lo8 did]
  have hsame : sameBytes u (storeTx u 0 (txBytes u 0 n)) := sameBytes_storeTx_txBytes u n
  have hlisted := txStart_listed
    (s := withPayload header (BitVec.ofNat 2 header.length) (BitVec.ofNat 12 (header.length + n))
      { u with didCur := did }) hsame
  have hrow : exec (.reqWriteDid did (txBytes s 0 n)) u =
      .next { requestWriteDid did n u with mem := (storeTx u 0 (txBytes u 0 n)).mem } := by
    have hexec : exec (.reqWriteDid did (txBytes s 0 n)) u =
        .next (requestWriteDid did (txBytes s 0 n).length (storeTx u 0 (txBytes s 0 n))) := rfl
    rw [hexec, txBytes_length]
    exact congrArg Host.Outcome.next hlisted
  obtain ⟨hframe, hbytes, -⟩ := requestFrame_sendRequest header n u did
  have hdraws : (requestWriteDid did n u).draws = (storeTx u 0 (txBytes u 0 n)).draws := hframe.draws
  let listed : State := { requestWriteDid did n u with mem := (storeTx u 0 (txBytes u 0 n)).mem }
  refine ⟨_, listed, exec_writeDid_ready hidle hready hlen, hrow, rfl, fun a => ?_⟩
  calc byteAt listed a
      = byteAt (storeTx u 0 (txBytes u 0 n)) a := byteAt_congr (s := storeTx u 0 _) (t := listed) rfl hdraws a
    _ = byteAt u a := hsame a
    _ = byteAt (requestWriteDid did n u) a := (hbytes a).symm

end Sys2Proof.Machine
end

section
/-! The proofs of the statements about a transfer in flight: failures, answered frames, Flow Control, and the induction
over the Consecutive Frames of a whole payload. -/

namespace Sys2Proof.Machine

/-! ### A command in flight that fails (60_exceptions.md R410) -/

theorem flightFrame_raise (e : CmdError) (s : State) : FlightFrame s (raise e s) :=
  ⟨rfl, rfl, rfl, rfl, rfl, rfl, rfl⟩

theorem failed_raise (e : CmdError) (s : State) : Failed (raise e s) (errorCode e) (errorDetail e) :=
  ⟨rfl, rfl, rfl, rfl, rfl, rfl, rfl, rfl⟩

/-- A failure by `raise` alone changes nothing besides STATUS and the end of the command. -/
theorem flightFails_raise (e : CmdError) (s : State) : FlightFails s (raise e s) (errorCode e) (errorDetail e) where
  error := failed_raise e s
  frame := ⟨flightFrame_raise e s, rfl, rfl, rfl, sameBytes_of rfl rfl⟩
  res := rfl
  tx := rfl
  txFrame := rfl

/-! ### The next Consecutive Frame (43_transmitter.md R292) -/

/-- The position after the next Consecutive Frame never wraps: a transfer past its end sends no byte. -/
theorem sendCf_pos (s : State) : (sendCf s).tx.pos.toNat = s.tx.pos.toNat + cfCount s := by
  have hpos := s.tx.pos.isLt
  have hlen := s.tx.len.isLt
  rw [sendCf_tx, BitVec.toNat_ofNat, cfCount]
  omega

theorem sendCf_presents (s : State) : PresentsConsecutive s (sendCf s) where
  ctl := rfl
  valid := rfl
  pos := sendCf_pos s
  frame := by
    have hseq : s.tx.seq.toNat ≤ 15 := Nat.le_of_lt_succ s.tx.seq.isLt
    rw [← cfFrame_eq s.regs hseq, BitVec.ofNat_toNat, BitVec.setWidth_eq]
    rfl

/-! ### Flow Control in FC_WAIT (43_transmitter.md R288, R289) -/

theorem exec_pciFc_fcWait {s : State} (h : s.ctl = .fcWait) (fs : FlowStatus) (bs st : Byte) (padding : List Byte) :
    exec (.pciFc s.regs.respId fs bs st padding) s = .next (fcReceived fs bs st s) := by
  rw [exec, execPciFc, whenReceived_fcWait h]

/-! ### Frames taken one after the other -/

/-- The last of `k + 1` answered frames is answered in the state the first `k` leave. -/
theorem acknowledge_succ {k : Nat} {s t : State} (h : acknowledge k s = .next t) :
    acknowledge (k + 1) s = txAnswered true t := by
  induction k generalizing s with
  | zero =>
    cases h
    rw [acknowledge]
    cases txAnswered true t <;> rfl
  | succ k ih =>
    rw [acknowledge] at h ⊢
    cases hanswer : txAnswered true s <;> rw [hanswer] at h
    · exact ih h
    · cases h
    · cases h

/-- The transfer of `s`, continued with BS 0 and no separation time, before Consecutive Frame `k + 1` is presented. -/
def transferAt (s : State) (k : Nat) : State :=
  { s with
    tx :=
      { s.tx with
        bs := 0, stUs := 0, bsCnt := 0, pos := BitVec.ofNat 12 (6 + 7 * k), seq := BitVec.ofNat 4 (k + 1)
        nFrames := s.tx.nFrames + BitVec.ofNat 16 k } }

/-- A ContinueToSend with BS 0 and no separation time starts the Consecutive Frames. -/
theorem fcReceived_continue {s : State} {st : Byte} (hst : (stDecode st).2 = 0) (hpos : s.tx.pos = 6)
    (hseq : s.tx.seq = 1) : fcReceived .continueToSend 0 st s = sendCf (transferAt s 0) := by
  have hfirst : transferAt s 0 = { s with tx := { s.tx with bs := 0, stUs := (stDecode st).2, bsCnt := 0 } } := by
    simp [transferAt, hst, hpos, hseq]
  rw [hfirst]
  rfl

section
variable {s : State} {k : Nat}

theorem transferAt_len : (transferAt s k).tx.len = s.tx.len := rfl

theorem transferAt_pos (h : 6 + 7 * k ≤ s.tx.len.toNat) : (transferAt s k).tx.pos.toNat = 6 + 7 * k := by
  have hlen := s.tx.len.isLt
  rw [transferAt, BitVec.toNat_ofNat]
  omega

theorem sendCf_len : (sendCf (transferAt s k)).tx.len = s.tx.len := rfl

theorem countCf_nFrames :
    (countCf (portTaken (sendCf (transferAt s k)))).tx.nFrames = s.tx.nFrames + BitVec.ofNat 16 (k + 1) := by
  rw [BitVec.ofNat_add, ← BitVec.add_assoc]
  rfl

/-- While at least 14 payload bytes are left, the next Consecutive Frame carries 7 and leaves some. -/
theorem sendCf_transferAt_pos (h : 7 * k + 14 ≤ s.tx.len.toNat) :
    (sendCf (transferAt s k)).tx.pos = BitVec.ofNat 12 (6 + 7 * (k + 1)) := by
  have hpos := transferAt_pos (s := s) (k := k) (by omega)
  have hcount : cfCount (transferAt s k) = 7 := by
    rw [cfCount, hpos, transferAt_len]
    omega
  rw [sendCf_tx, hpos, hcount]
  rfl

/-- A taken Consecutive Frame is counted, and the transfer stands before the next one; with BS 0 the block is not
counted (43_transmitter.md R293). -/
theorem sendCf_countCf_transferAt (h : 7 * k + 14 ≤ s.tx.len.toNat) :
    sendCf (countCf (portTaken (sendCf (transferAt s k)))) = sendCf (transferAt s (k + 1)) := by
  have hseq : BitVec.ofNat 4 (k + 1) + 1 = BitVec.ofNat 4 (k + 2) := (BitVec.ofNat_add (k + 1) 1).symm
  have hframes : s.tx.nFrames + BitVec.ofNat 16 k + 1 = s.tx.nFrames + BitVec.ofNat 16 (k + 1) := countCf_nFrames
  calc sendCf (countCf (portTaken (sendCf (transferAt s k))))
      = sendCf { s with
          tx := { s.tx with
            bs := 0, stUs := 0, bsCnt := 0, pos := (sendCf (transferAt s k)).tx.pos
            seq := BitVec.ofNat 4 (k + 1) + 1, nFrames := s.tx.nFrames + BitVec.ofNat 16 k + 1 } } := rfl
    _ = sendCf (transferAt s (k + 1)) := by rw [sendCf_transferAt_pos h, hseq, hframes]; rfl

/-- A taken Consecutive Frame that is not the last one presents the next at once. -/
theorem txAnswered_sendCf_transferAt (h : 7 * k + 14 ≤ s.tx.len.toNat) :
    txAnswered true (sendCf (transferAt s k)) = .next (sendCf (transferAt s (k + 1))) := by
  have hlen := s.tx.len.isLt
  have hpos := sendCf_transferAt_pos h
  have hmore : (sendCf (transferAt s k)).tx.pos ≠ (sendCf (transferAt s k)).tx.len := by
    rw [hpos, sendCf_len, Ne, ← BitVec.toNat_inj, BitVec.toNat_ofNat]
    omega
  rw [txAnswered_txCf rfl]
  obtain ⟨hend, -⟩ | ⟨-, ⟨hbs, -⟩, -⟩ | ⟨-, -, -, hacked⟩ | ⟨-, -, hst, -⟩ :=
    txCfAcked_cases (portTaken (sendCf (transferAt s k)))
  · exact absurd hend hmore
  · exact absurd rfl hbs
  · rw [hacked, sendCf_countCf_transferAt h]
  · exact absurd rfl hst

/-- After `k` taken frames Consecutive Frame `k + 1` is presented, as long as there is one. -/
theorem acknowledge_transferAt (h : k < s.tx.len.toNat / 7) :
    acknowledge k (sendCf (transferAt s 0)) = .next (sendCf (transferAt s k)) := by
  induction k with
  | zero => rfl
  | succ k ih => rw [acknowledge_succ (ih (by omega)), txAnswered_sendCf_transferAt (by omega)]

/-- The Consecutive Frame presented after `k` taken ones: its number and its payload bytes. -/
theorem sendCf_transferAt_frame (h : 6 + 7 * k < s.tx.len.toNat) :
    (sendCf (transferAt s k)).port.frame = mkFrame s.regs (BitVec.ofNat 8 (0x20 + (k + 1) % 16) ::
      (List.range (min 7 (s.tx.len.toNat - (6 + 7 * k)))).map fun j => payloadByte s (6 + 7 * k + j)) := by
  have hframe := (sendCf_presents (transferAt s k)).frame
  rw [transferAt_pos h.le] at hframe
  exact hframe

/-- With its last Consecutive Frame taken the transfer ends. -/
theorem txAnswered_last (hop : isSendOp s.op = true) (hk : 6 + 7 * k ≤ s.tx.len.toNat)
    (hlast : s.tx.len.toNat ≤ 13 + 7 * k) :
    ∃ t, txAnswered true (sendCf (transferAt s k)) = .next t ∧
      TransferEnds s { t with port := { t.port with frame := s.port.frame } }
        (s.tx.nFrames + BitVec.ofNat 16 (k + 1)) := by
  have hend : (sendCf (transferAt s k)).tx.pos = (sendCf (transferAt s k)).tx.len := by
    apply BitVec.eq_of_toNat_eq
    rw [sendCf_pos, cfCount, transferAt_pos hk, transferAt_len, sendCf_len]
    omega
  rw [txAnswered_txCf rfl]
  obtain ⟨-, hacked⟩ | ⟨hmore, -⟩ | ⟨hmore, -⟩ | ⟨hmore, -⟩ := txCfAcked_cases (portTaken (sendCf (transferAt s k)))
  · obtain ⟨t, hdone, hends, -⟩ := txDone_transferEnds (s := sendCf (transferAt s k)) hop
      (x := (countCf (portTaken (sendCf (transferAt s k)))).tx) rfl rfl
    rw [countCf_nFrames] at hends
    obtain ⟨⟨hflight, hrxLen, hrasm, hdraws, hbytes⟩, -, hvalid, hsent, hresp, hack⟩ := hends
    exact ⟨t, hacked.trans hdone, {
      frame := ⟨⟨hflight.regs, hflight.fout, hflight.env, hflight.op, hflight.didCur, hflight.respLim,
        hflight.cmdRejected⟩, hrxLen, hrasm, hdraws, hbytes⟩
      txFrame := rfl
      valid := hvalid
      sent := fun htp => ⟨⟨(hsent htp).1.done, (hsent htp).1.err, (hsent htp).1.errcode, (hsent htp).1.res,
        (hsent htp).1.ctl, (hsent htp).1.port, (hsent htp).1.tmr, (hsent htp).1.lim⟩, (hsent htp).2⟩
      response := hresp
      acknowledgement := hack }⟩
  all_goals exact absurd hend hmore

end

/-! ### The statements -/

/-- Settles O44: the three flow statuses one by one. -/
theorem flowControlContinuesOrRejectsTheTransfer : Obligations.FlowControlContinuesOrRejectsTheTransfer := by
  intro s bs st padding hctl
  refine ⟨⟨_, exec_pciFc_fcWait hctl .continueToSend bs st padding, sendFrame_update .., ?_, rfl, rfl, rfl, rfl⟩,
    ⟨_, exec_pciFc_fcWait hctl .wait bs st padding, flightFails_raise (.flowControlRejected .wait) s⟩,
    ⟨_, exec_pciFc_fcWait hctl .overflow bs st padding, flightFails_raise (.flowControlRejected .overflow) s⟩⟩
  obtain ⟨hctl', hvalid, hpos, hframe⟩ :=
    sendCf_presents { s with tx := { s.tx with bs := bs, stUs := (stDecode st).2, bsCnt := 0 } }
  exact ⟨hctl', hvalid, hpos, hframe⟩

/-- A failure by `raise` that forgets RXBUF from `rasm_len` on ends a reassembly. -/
theorem reassemblyEnds_raise_forgetRx (e : CmdError) (s : State) :
    ReassemblyEnds s (raise e (forgetRx s s.rasm.len.toNat)) (errorCode e) (errorDetail e) where
  error := failed_raise e _
  frame := {
    flight := ⟨rfl, rfl, rfl, rfl, rfl, rfl, rfl⟩
    tx := rfl
    txbuf := fun a ha => byteAt_forgetRx_outside s s.rasm.len.toNat a (.inl ha) }
  outbuf := fun a ha => byteAt_forgetRx_outside s s.rasm.len.toNat a (.inr ha)
  res := rfl
  rxLen := rfl
  txFrame := rfl
  accumulated := fun k v hk hv =>
    byteAt_forgetRx_listed s s.rasm.len.toNat (rxBase + k) v hv (Nat.add_lt_add_left hk rxBase)

/-- Settles O46: the three states that take an answer, then the rejected frame with and without a reassembly. -/
theorem answeredFramesMoveTheCommandOn : Obligations.AnsweredFramesMoveTheCommandOn := by
  intro s
  refine ⟨fun hctl hop => ?_, fun hctl => ⟨_, txAnswered_txFf hctl, sendFrame_update .., rfl, rfl, rfl, rfl, rfl, rfl,
    sat32_toNat _⟩, fun hctl => txAnswered_rxFc hctl, _, txAnswered_rejected s, fun hctl => ?_, fun hctl => ?_⟩
  · obtain ⟨t, hdone, hends, htx⟩ := txDone_transferEnds hop (x := { s.tx with nFrames := 1 }) rfl rfl
    exact ⟨t, (txAnswered_txSf hctl).trans hdone, hends, htx⟩
  · obtain ⟨herror, ⟨hflight, hrxLen, hrasm, hdraws, hbytes⟩, hres, htx, hframe⟩ :=
      flightFails_raise (.busNotReady true) (portTaken s)
    rw [txRejected, if_neg (show (portTaken s).ctl ≠ .rxFc from hctl)]
    exact ⟨herror, ⟨⟨rfl, rfl, rfl, rfl, rfl, rfl, rfl⟩, hrxLen, hrasm, hdraws, hbytes⟩, hres, htx, hframe⟩
  · obtain ⟨herror, ⟨hflight, htx, htxbuf⟩, houtbuf, hres, hrxLen, hframe, haccumulated⟩ :=
      reassemblyEnds_raise_forgetRx (.busNotReady true) (portTaken s)
    rw [txRejected, if_pos (show (portTaken s).ctl = .rxFc from hctl)]
    exact ⟨⟨herror, ⟨⟨rfl, rfl, rfl, rfl, rfl, rfl, rfl⟩, htx, htxbuf⟩, houtbuf, hres, hrxLen, hframe, haccumulated⟩,
      rfl⟩

/-- Settles O47, by induction over the taken frames (`acknowledge_transferAt`) and the end after the last one. -/
theorem transmitterSendsTheWholePayloadInOrder : Obligations.TransmitterSendsTheWholePayloadInOrder := by
  intro s st padding hctl hop hst hpos hseq hlen len frames
  have hframes : frames = len / 7 := congrArg (· / 7) (Nat.sub_add_cancel (by omega))
  refine ⟨_, exec_pciFc_fcWait hctl .continueToSend 0 st padding, ?_⟩
  rw [fcReceived_continue hst hpos hseq]
  constructor
  · intro k hk
    exact ⟨_, acknowledge_transferAt (hframes ▸ hk), sendFrame_update .., rfl, rfl, rfl,
      sendCf_transferAt_frame (by omega)⟩
  · obtain ⟨last, hlast⟩ : ∃ last, frames = last + 1 := ⟨frames - 1, by omega⟩
    obtain ⟨t, hanswer, hends⟩ := txAnswered_last (s := s) (k := last) hop (by omega) (by omega)
    refine ⟨t, ?_, hlast ▸ hends⟩
    rw [hlast, acknowledge_succ (acknowledge_transferAt (by omega)), hanswer]

end Sys2Proof.Machine
end

section
/-! The proofs of the invariant's statements and of the range checks: how a command ends, and that every input of the
schedule keeps the invariant and runs into no fault. -/

namespace Sys2Proof.Machine

/-! ### How a rule ends its command (60_exceptions.md R410, R411) -/

/-- What a rule that runs to its end in one event can leave: an error other than InvalidArgument, or a result, with at
most FOUT and the listed bytes written before it. -/
inductive EndsCommand (s : State) : State → Prop
  | error (e : CmdError) (he : e ≠ .invalidArgument) : EndsCommand s (raise e s)
  | result (k : ResKind) (r0 r1 r2 r3 : Word32) (f : FrameRegs) (m : List Host.Cell)
      (hm : Memory.wf s.mem = true → Memory.wf m = true) :
      EndsCommand s (finish k r0 r1 r2 r3 { s with fout := f, mem := m })

/-- A result with nothing written before it. -/
theorem EndsCommand.resultOnly (s : State) (k : ResKind) (r0 r1 r2 r3 : Word32) :
    EndsCommand s (finish k r0 r1 r2 r3 s) := .result k r0 r1 r2 r3 s.fout s.mem id

theorem endsCommand_encSfRule (s : State) : EndsCommand s (encSfRule s) := by
  unfold encSfRule
  split
  · exact .error _ nofun
  · exact .result _ _ _ _ _ _ s.mem id

theorem endsCommand_classifyRule (s : State) : EndsCommand s (classifyRule s) := by
  unfold classifyRule
  dsimp only
  split
  · exact .error _ nofun
  all_goals exact .resultOnly ..

theorem memWf_putEcuFields {s : State} (off : Nat) (h : Memory.wf s.mem = true) :
    Memory.wf (putEcuFields s off).mem = true :=
  memWf_storeAt _ _ (memWf_storeAt _ _ (memWf_storeAt _ _ (memWf_storeAt _ _ (memWf_storeAt _ _ (memWf_zeroOut h)))))

theorem storeOut_listed {s t : State} (h : ∃ m, t = { s with mem := m }) (k : Nat) (bs : List Byte) :
    ∃ m, storeOut t k bs = { s with mem := m } := by
  obtain ⟨m, rfl⟩ := h
  exact ⟨_, rfl⟩

/-- Of the state, the five texts change the listed bytes only. -/
theorem putEcuFields_listed (s : State) (off : Nat) : ∃ m, putEcuFields s off = { s with mem := m } :=
  storeOut_listed (storeOut_listed (storeOut_listed (storeOut_listed (storeOut_listed ⟨_, rfl⟩ _ _) _ _) _ _) _ _) _ _

theorem endsCommand_ecuDecode (off n : Nat) (s : State) : EndsCommand s (ecuDecode off n s) := by
  unfold ecuDecode
  dsimp only
  split
  · exact .error _ nofun
  · split
    · exact .error _ nofun
    · obtain ⟨m, hm⟩ := putEcuFields_listed s off
      have hwf := memWf_putEcuFields (s := s) off
      rw [hm] at hwf ⊢
      exact .result _ _ _ _ _ s.fout m hwf

theorem endsCommand_sensorDecode (off n : Nat) (s : State) : EndsCommand s (sensorDecode off n s) := by
  unfold sensorDecode
  split
  · exact .error _ nofun
  · exact .resultOnly ..

theorem endsCommand_textResult (d : List Byte × Bool) (s : State) : EndsCommand s (textResult d s) :=
  .result _ _ _ _ _ s.fout (storeOut (zeroOut s) 0 d.1).mem fun h => memWf_storeAt _ _ (memWf_zeroOut h)

theorem endsCommand_dtcList (off n : Nat) (s : State) : EndsCommand s (dtcList off n s) := .resultOnly ..

theorem endsCommand_registryDispatch (did : Did) (off n : Nat) (s : State) :
    EndsCommand s (registryDispatch did off n s) := by
  unfold registryDispatch
  split
  · exact endsCommand_ecuDecode ..
  · split
    · exact endsCommand_sensorDecode ..
    · exact .resultOnly ..

theorem wrongSid_ne (s : State) : wrongSid s ≠ .invalidArgument := by
  unfold wrongSid
  split <;> nofun

theorem endsCommand_validateSid (expected : Byte) {rest : State → State} {s : State} (h : EndsCommand s (rest s)) :
    EndsCommand s (validateSid expected rest s) := by
  obtain ⟨-, he⟩ | ⟨-, -, he⟩ | ⟨-, -, he⟩ := validateSid_cases expected rest s <;> rw [he]
  · exact .error _ nofun
  · exact .error _ (wrongSid_ne s)
  · exact h

theorem endsCommand_readDidComplete (s : State) : EndsCommand s (readDidComplete s) := by
  refine endsCommand_validateSid _ ?_
  unfold readDidEcho
  split
  · exact .error _ nofun
  · split
    · exact .error _ nofun
    · exact endsCommand_registryDispatch ..

theorem endsCommand_readDtcComplete (s : State) : EndsCommand s (readDtcComplete s) := by
  refine endsCommand_validateSid _ ?_
  split
  · exact .error _ nofun
  · exact endsCommand_dtcList ..

theorem endsCommand_writeDidAck (s : State) : EndsCommand s (writeDidAck s) := by
  refine endsCommand_validateSid _ ?_
  split
  · exact .resultOnly ..
  · exact .error _ nofun

theorem endsCommand_clearDtcAck (s : State) : EndsCommand s (clearDtcAck s) :=
  endsCommand_validateSid _ (.resultOnly ..)

/-- A reassembled payload ends every command that reassembles one (42_reassembly.md R250). -/
theorem rasmComplete_ends {s : State} (h : isReassembleOp s.op = true) :
    ∃ t, rasmComplete s = .next t ∧ EndsCommand (rasmTaken s) t := by
  simp only [isReassembleOp, Bool.or_eq_true, beq_iff_eq] at h
  obtain (hop | hop) | hop := h
  · exact ⟨_, rasmComplete_tpRecv hop, .resultOnly ..⟩
  · exact ⟨_, rasmComplete_readDid hop, endsCommand_readDidComplete _⟩
  · exact ⟨_, rasmComplete_readDtc hop, endsCommand_readDtcComplete _⟩

theorem ackSingle_ends (payload : List Byte) (s : State) :
    EndsCommand (rasmTaken (takePayload payload s)) (ackSingle payload s) := by
  unfold ackSingle
  dsimp only
  split
  · exact endsCommand_writeDidAck _
  · exact endsCommand_clearDtcAck _

/-! ### The invariant of a control state -/

theorem controlInv_idle {s : State} (hctl : s.ctl = .idle) (hport : s.port.valid = false) : ControlInv s := by
  constructor <;> simp [hctl, hport, presenting, sending]

theorem controlInv_congr {s t : State} (h : ControlInv s) (hctl : t.ctl = s.ctl)
    (hport : t.port.valid = s.port.valid) (hop : t.op = s.op) (hrasm : t.rasm = s.rasm) (htx : t.tx = s.tx) :
    ControlInv t := by
  constructor <;> simp only [hctl, hport, hop, hrasm, htx]
  exacts [h.port, h.sendOp, h.sendPhase, h.sendLeft, h.sendPos, h.respOp, h.respPhase, h.rxFcPhase, h.lacks, h.ackOp]

theorem statusInv_congr {s t : State} (h : StatusInv s) (hctl : t.ctl = s.ctl) (hdone : t.status.done = s.status.done)
    (herr : t.status.err = s.status.err) (hcode : t.status.errcode = s.status.errcode)
    (hdetail : t.status.errDetail = s.status.errDetail) (hres : t.res = s.res) : StatusInv t := by
  constructor <;> simp only [hctl, hdone, herr, hcode, hdetail, hres]
  exacts [h.inFlight, h.noResult, h.failed, h.noError]

section
variable {s : State}

/-- The first frame of a payload is presented by a sending command (43_transmitter.md R282, R283). -/
theorem controlInv_txStart (hop : isSendOp s.op = true) (hphase : s.rasm.phase = .idle) : ControlInv (txStart s) := by
  by_cases hshort : s.tx.len.toNat ≤ 7
  · rw [txStart, if_pos hshort]
    constructor <;> simp [presenting, sending, hop, hphase]
  · rw [txStart, if_neg hshort]
    constructor <;> simp [presenting, sending, hop, hphase]
    omega

/-- A Consecutive Frame never goes past the payload (43_transmitter.md R292). -/
theorem controlInv_txCf (hctl : s.ctl = .txCf) (hport : s.port.valid = true) (hop : isSendOp s.op = true)
    (hphase : s.rasm.phase = .idle) (hpos : s.tx.pos.toNat ≤ s.tx.len.toNat) : ControlInv s := by
  constructor <;> simp [hctl, hport, presenting, sending, hop, hphase, hpos]

theorem controlInv_sendCf (hop : isSendOp s.op = true) (hphase : s.rasm.phase = .idle)
    (hpos : s.tx.pos.toNat ≤ s.tx.len.toNat) : ControlInv (sendCf s) :=
  controlInv_txCf rfl rfl hop hphase ((sendCf_pos s).trans_le (cfCount_le s hpos))

/-- A transfer with payload left waits with no frame presented. -/
theorem controlInv_sendWait (hctl : s.ctl = .fcWait ∨ s.ctl = .stWait) (hport : s.port.valid = false)
    (hop : isSendOp s.op = true) (hphase : s.rasm.phase = .idle) (hleft : s.tx.pos.toNat < s.tx.len.toNat) :
    ControlInv s := by
  obtain hctl | hctl := hctl <;> constructor <;> simp [hctl, hport, presenting, sending, hop, hphase, hleft]

/-- A response window, before or in a reassembly. -/
theorem controlInv_respWait (hctl : s.ctl = .respWait) (hport : s.port.valid = false)
    (hop : isReassembleOp s.op = true) (hphase : s.rasm.phase = .idle ∨ s.rasm.phase = .accumulating)
    (hlacks : s.rasm.phase = .accumulating → s.rasm.len.toNat < s.rasm.exp.toNat) : ControlInv s := by
  constructor <;> simp [hctl, hport, presenting, sending, hop, hphase]
  exact hlacks

theorem controlInv_rxFc (hctl : s.ctl = .rxFc) (hport : s.port.valid = true) (hop : isReassembleOp s.op = true)
    (hphase : s.rasm.phase = .accumulating) (hlacks : s.rasm.len.toNat < s.rasm.exp.toNat) : ControlInv s := by
  constructor <;> simp [hctl, hport, presenting, sending, hop, hphase, hlacks]

theorem controlInv_ackWait (hctl : s.ctl = .ackWait) (hport : s.port.valid = false) (hop : isAckOp s.op = true) :
    ControlInv s := by
  constructor <;> simp [hctl, hport, presenting, sending, hop]

end

/-! ### The invariant of STATUS and the results -/

/-- What STATUS, the results and the buffers are while a command runs (10_state.md R38, 70_reset_and_hazards.md
R461). -/
def Running (s : State) : Prop :=
  (s.status.done = false ∧ s.status.err = false ∧ s.status.errcode = 0 ∧ s.status.errDetail = 0) ∧
    s.res = { kind := 0, r0 := 0, r1 := 0, r2 := 0, r3 := 0 } ∧ Memory.wf s.mem = true

theorem running_accept (o : BitVec 8) {s : State} (h : Memory.wf s.mem = true) : Running (accept o s) :=
  ⟨⟨rfl, rfl, rfl, rfl⟩, rfl, h⟩

theorem running_of_inv {s : State} (h : Inv s) (hctl : s.ctl ≠ .idle) : Running s := by
  obtain ⟨hdone, herr⟩ := h.status.inFlight hctl
  obtain ⟨hcode, hdetail⟩ := h.status.noError herr
  exact ⟨⟨hdone, herr, hcode, hdetail⟩, h.status.noResult hctl, h.mem⟩

theorem Running.congr {s t : State} (h : Running s) (hstatus : t.status = s.status) (hres : t.res = s.res)
    (hmem : t.mem = s.mem) : Running t := by
  rw [Running, hstatus, hres, hmem]
  exact h

theorem Running.storeRx {s : State} (h : Running s) (k : Nat) (bs : List Byte) : Running (storeRx s k bs) := by
  obtain ⟨hclear, hres, hmem⟩ := h
  exact ⟨hclear, hres, memWf_storeAt _ bs hmem⟩

theorem Running.forgetRx {s : State} (h : Running s) (n : Nat) : Running (forgetRx s n) := by
  obtain ⟨hclear, hres, hmem⟩ := h
  exact ⟨hclear, hres, memWf_forgetRx n hmem⟩

theorem inv_of_running {s : State} (h : Running s) (hcontrol : ControlInv s) : Inv s := by
  obtain ⟨⟨hdone, herr, hcode, hdetail⟩, hres, hmem⟩ := h
  refine ⟨hcontrol, ⟨fun _ => ⟨hdone, herr⟩, fun _ => hres, fun hfail => ?_, fun _ => ⟨hcode, hdetail⟩⟩, hmem⟩
  rw [herr] at hfail
  cases hfail

theorem inv_raise {s : State} (h : Running s) (e : CmdError) : Inv (raise e s) := by
  obtain ⟨-, hres, hmem⟩ := h
  exact ⟨controlInv_idle rfl rfl, ⟨fun hbusy => absurd rfl hbusy, fun hbusy => absurd rfl hbusy,
    fun _ => ⟨hres, rfl⟩, nofun⟩, hmem⟩

/-- A failed reassembly forgets the end of RXBUF, and raises its error (42_reassembly.md R252). -/
theorem inv_rasmFail {s : State} (h : Running s) (e : CmdError) : Inv (rasmFail e s) :=
  inv_raise (Running.forgetRx (s := { s with rasm := { s.rasm with phase := .failed, why := errorCode e } }) h _) e

theorem inv_of_endsCommand {s t : State} (h : Running s) (hends : EndsCommand s t) : Inv t := by
  cases hends with
  | error e he => exact inv_raise h e
  | result k r0 r1 r2 r3 f m hm =>
    obtain ⟨⟨-, -, -, hdetail⟩, -, hmem⟩ := h
    exact ⟨controlInv_idle rfl rfl, ⟨fun hbusy => absurd rfl hbusy, fun hbusy => absurd rfl hbusy, nofun,
      fun _ => ⟨rfl, hdetail⟩⟩, hm hmem⟩

/-! ### Inputs that touch no control state -/

theorem inv_env {s : State} (h : Inv s) (e : Environment) : Inv { s with env := e } :=
  ⟨controlInv_congr h.control rfl rfl rfl rfl rfl, statusInv_congr h.status rfl rfl rfl rfl rfl rfl, h.mem⟩

theorem inv_cmdRejected {s : State} (h : Inv s) (b : Bool) :
    Inv { s with status := { s.status with cmdRejected := b } } :=
  ⟨controlInv_congr h.control rfl rfl rfl rfl rfl, statusInv_congr h.status rfl rfl rfl rfl rfl rfl, h.mem⟩

theorem inv_timer {s : State} (h : Inv s) (x : Timer) : Inv { s with timer := x } :=
  ⟨controlInv_congr h.control rfl rfl rfl rfl rfl, statusInv_congr h.status rfl rfl rfl rfl rfl rfl, h.mem⟩

theorem inv_hostStore {s : State} (h : Inv s) (a : Nat) (v : Word32) : Inv (hostStore a v s) := by
  have hcontrol : ∀ r m, ControlInv { s with regs := r, mem := m } := fun r m =>
    controlInv_congr h.control rfl rfl rfl rfl rfl
  have hstatus : ∀ r m, StatusInv { s with regs := r, mem := m } := fun r m =>
    statusInv_congr h.status rfl rfl rfl rfl rfl rfl
  unfold hostStore
  split
  · exact h
  · split
    · exact ⟨hcontrol s.regs _, hstatus s.regs _, memWf_storeAt _ _ h.mem⟩
    · exact ⟨hcontrol _ s.mem, hstatus _ s.mem, h.mem⟩

/-- Settles O58, from the values of reset. -/
theorem resetStateHasInv : Obligations.ResetStateHasInv :=
  ⟨controlInv_idle rfl rfl, ⟨nofun, nofun, nofun, fun _ => ⟨rfl, rfl⟩⟩, memWf_reset⟩

theorem inv_resetEvent (s : State) : Inv (resetEvent s) :=
  ⟨controlInv_congr resetStateHasInv.control rfl rfl rfl rfl rfl,
    statusInv_congr resetStateHasInv.status rfl rfl rfl rfl rfl rfl, resetStateHasInv.mem⟩

/-! ### Outcomes that keep the invariant -/

/-- An outcome that is no fault and, if it is a next state, one with the invariant. -/
inductive KeepsInv : Out → Prop
  | next {t : State} (h : Inv t) : KeepsInv (.next t)
  | refused (r : Refusal) : KeepsInv (.refused r)

/-- The timeout evaluation (60_exceptions.md R421). -/
theorem inv_timeoutEval {s : State} (h : Inv s) : Inv (timeoutEval s) := by
  have hrunning := running_of_inv h
  unfold timeoutEval
  split
  · unfold expire
    split
    · next hctl => exact inv_raise (hrunning (by simp [hctl])) _
    · next hctl =>
      have hsend : sending s.ctl = true := by rw [hctl]; rfl
      exact inv_of_running (hrunning (by simp [hctl]))
        (controlInv_sendCf (h.control.sendOp hsend) (h.control.sendPhase hsend)
          (h.control.sendLeft (.inr (.inr hctl))).le)
    · next hctl => exact inv_rasmFail (hrunning (by simp [hctl])) _
    · next hctl => exact inv_raise (hrunning (by simp [hctl])) _
    all_goals exact h
  · exact h

theorem keepsInv_settle {o : Out} (h : KeepsInv o) : KeepsInv (settle o) := by
  cases h with
  | next h => exact .next (inv_timeoutEval h)
  | refused r => exact .refused r

/-! ### Commands (40_command_interface.md R172 to R177) -/

/-- The start rule of a bus command with opcode `o`: it leaves STATUS, the results and the buffers alone, and a
consistent control state where the bus start has run. -/
def StartsCommand (o : BitVec 8) (start : State → State) : Prop :=
  ∀ s, ((start s).status = s.status ∧ (start s).res = s.res ∧ (start s).mem = s.mem) ∧
    (s.op = o → s.rasm.phase = .idle → s.port.valid = false → ControlInv (start s))

theorem startsCommand_txStart {o : BitVec 8} (hop : isSendOp o = true) (hdr : State → List Byte)
    (hdrLen : State → BitVec 2) (len : State → BitVec 12) (did : State → Did) :
    StartsCommand o fun s => txStart (withPayload (hdr s) (hdrLen s) (len s) { s with didCur := did s }) := by
  intro s
  obtain ⟨pos, c, p, he⟩ := txStart_eq (withPayload (hdr s) (hdrLen s) (len s) { s with didCur := did s })
  refine ⟨?_, fun hs hphase _ => controlInv_txStart (by rw [← hs] at hop; exact hop) hphase⟩
  beta_reduce
  rw [he]
  exact ⟨rfl, rfl, rfl⟩

theorem startsCommand_sendRequest {o : BitVec 8} (hop : isSendOp o = true) (header : State → List Byte)
    (n : State → Nat) (did : State → Did) :
    StartsCommand o fun s => sendRequest (header s) (n s) { s with didCur := did s } :=
  startsCommand_txStart hop header _ _ did

theorem startsCommand_rasmStart {o : BitVec 8} (hop : isReassembleOp o = true) : StartsCommand o rasmStart := by
  refine fun s => ⟨⟨rfl, rfl, rfl⟩, fun hs hphase hport =>
    controlInv_respWait rfl hport (by rw [← hs] at hop; exact hop) (.inl hphase) fun hacc => ?_⟩
  rw [rasmStart_rasm, hphase] at hacc
  cases hacc

/-- The argument ranges each command checks (30_encoding.md R134), failed. -/
def OutOfRange (i : Instr) (r : HostRegs) : Prop :=
  let arg0 := r.arg0.toNat; let off := r.arg1.toNat % 65536; let len := r.arg2.toNat % 65536
  let st := r.arg2.toNat % 256
  i = .encFf ∧ 4095 < arg0 % 65536 ∨
  i = .encCf ∧ (15 < arg0 % 256 ∨ 7 < len) ∨
  i = .encFc ∧ (2 < arg0 % 256 ∨ 0x80 ≤ st ∧ st ≤ 0xF0 ∨ 0xFA ≤ st) ∨
  i = .classify ∧ 8 < r.fin.dlc.toNat ∨
  i = .tpSend ∧ 4095 < len ∨
  i = .writeDid ∧ 4092 < len ∨
  (i = .decEcuInfo ∨ i = .decSensor ∨ i = .decDtcList) ∧ 4096 < off + len

theorem encFcArgsOk_iff_inRange (r : HostRegs) : encFcArgsOk r = true ↔ ¬ OutOfRange .encFc r := by
  simp only [encFcArgsOk_iff, OutOfRange, true_and, reduceCtorEq, false_and, or_self, or_false, false_or]
  omega

theorem encCfArgsOk_iff_inRange (r : HostRegs) : encCfArgsOk r = true ↔ ¬ OutOfRange .encCf r := by
  simp only [encCfArgsOk_iff, OutOfRange, true_and, reduceCtorEq, false_and, or_self, or_false, false_or]
  omega

/-- Every row of the opcode map is a command request with the range check of R134, whose rule ends the command or is a
bus start. The cases stand in the map's order. -/
theorem exec_command_cases {row : BitVec 8 × Instr} (h : row ∈ commandTable) :
    ∃ argsOk rule, (∀ s, exec row.2 s = .next (command row.1 argsOk rule s)) ∧
      (∀ r, argsOk r = true ↔ ¬ OutOfRange row.2 r) ∧
      ((∀ s, EndsCommand s (rule s)) ∨ ∃ start, rule = busStart start ∧ StartsCommand row.1 start) := by
  fin_cases h
  · exact ⟨_, encSfRule, fun _ => rfl, fun r => by simp [OutOfRange], .inl endsCommand_encSfRule⟩
  · exact ⟨_, encFfRule, fun _ => rfl, fun r => by simp [encFfArgsOk_iff, OutOfRange],
      .inl fun s => .result _ _ _ _ _ _ s.mem id⟩
  · exact ⟨_, encCfRule, fun _ => rfl, encCfArgsOk_iff_inRange, .inl fun s => .result _ _ _ _ _ _ s.mem id⟩
  · exact ⟨_, encFcRule, fun _ => rfl, encFcArgsOk_iff_inRange, .inl fun s => .result _ _ _ _ _ _ s.mem id⟩
  · exact ⟨_, classifyRule, fun _ => rfl, fun r => by simp [classifyArgsOk_iff, OutOfRange],
      .inl endsCommand_classifyRule⟩
  · exact ⟨_, _, fun _ => rfl, fun r => by simp [OutOfRange], .inr ⟨_, rfl, startsCommand_rasmStart rfl⟩⟩
  · exact ⟨_, _, fun _ => rfl, fun r => by simp [tpSendArgsOk, argLen_eq, OutOfRange],
      .inr ⟨_, rfl, startsCommand_txStart rfl _ _ _ State.didCur⟩⟩
  · exact ⟨_, _, fun _ => rfl, fun r => by simp [OutOfRange],
      .inr ⟨_, rfl, startsCommand_sendRequest rfl _ _ fun s => argDid s.regs⟩⟩
  · exact ⟨_, _, fun _ => rfl, fun r => by simp [writeDidArgsOk, argLen_eq, OutOfRange],
      .inr ⟨_, rfl, startsCommand_sendRequest rfl _ _ fun s => argDid s.regs⟩⟩
  iterate 2
    exact ⟨_, _, fun _ => rfl, fun r => by simp [OutOfRange],
      .inr ⟨_, rfl, startsCommand_sendRequest rfl _ _ State.didCur⟩⟩
  · exact ⟨_, _, fun _ => rfl, fun r => by simp [rxRangeArgsOk_iff, OutOfRange],
      .inl fun s => endsCommand_ecuDecode _ _ s⟩
  · exact ⟨_, _, fun _ => rfl, fun r => by simp [rxRangeArgsOk_iff, OutOfRange],
      .inl fun s => endsCommand_sensorDecode _ _ s⟩
  · exact ⟨_, encThresholdsRule, fun _ => rfl, fun r => by simp [OutOfRange],
      .inl fun s => .result _ _ _ _ _ s.fout _ (memWf_memStoreBytes _ _)⟩
  · exact ⟨_, _, fun _ => rfl, fun r => by simp [rxRangeArgsOk_iff, OutOfRange],
      .inl fun s => endsCommand_dtcList _ _ s⟩
  iterate 2
    exact ⟨_, _, fun _ => rfl, fun r => by simp [OutOfRange], .inl fun s => endsCommand_textResult _ s⟩

theorem inv_busStart {o : BitVec 8} {start : State → State} (hstart : StartsCommand o start) {s : State}
    (h : Inv s) (hidle : s.ctl = .idle) : Inv (busStart start (accept o s)) := by
  have hrunning : Running (busInit (accept o s)) := running_accept o h.mem
  have hport : s.port.valid = false := by rw [h.control.port, hidle]; rfl
  cases hready : s.env.busReady with
  | false =>
    rw [busStart_notReady (s := accept o s) hready]
    exact inv_raise hrunning _
  | true =>
    obtain ⟨⟨hstatus, hres, hmem⟩, hcontrol⟩ := hstart (busInit (accept o s))
    rw [busStart_ready (s := accept o s) hready]
    exact inv_of_running (hrunning.congr hstatus hres hmem) (hcontrol rfl rfl hport)

/-- A command request keeps the invariant if its rule does after acceptance. -/
theorem inv_command {o : BitVec 8} {argsOk : HostRegs → Bool} {rule : State → State} {s : State} (h : Inv s)
    (hrule : s.ctl = .idle → Inv (rule (accept o s))) : Inv (command o argsOk rule s) := by
  obtain ⟨-, he⟩ | ⟨hidle, -, he⟩ | ⟨-, -, he⟩ := command_cases (o := o) (k := argsOk) (b := rule) s <;> rw [he]
  · exact inv_cmdRejected h true
  · exact hrule hidle
  · exact inv_raise (running_accept o h.mem) _

/-- A write to CMD, be its opcode in the map or reserved. -/
theorem keepsInv_commandWritten (v : Word32) {s : State} (h : Inv s) : KeepsInv (commandWritten v s) := by
  unfold commandWritten
  split
  · next i hdec =>
    obtain ⟨argsOk, rule, hexec, -, hends | ⟨start, rfl, hstart⟩⟩ :=
      exec_command_cases (mem_commandTable_of_decodeCommand hdec) <;> rw [hexec]
    · exact .next (inv_command h fun _ => inv_of_endsCommand (running_accept _ h.mem) (hends _))
    · exact .next (inv_command h fun hidle => inv_busStart hstart h hidle)
  · exact .next (inv_command h fun _ => inv_raise (running_accept _ h.mem) _)

/-! ### Received frames (40_command_interface.md R179) -/

theorem frameReceived_ok {f : Frame} {i : Instr} (h : decodeFrame f = .ok i) (s : State) :
    frameReceived f s = exec i s := by
  rw [frameReceived, h]

theorem frameReceived_malformed {f : Frame} (h : classifyFrame f = .malformed) (s : State) :
    frameReceived f s = whenReceived f.id (fun t => .next (raise (.malformedPci (f.byte 0) f.dlc) t))
      (fun t => .next (rasmFail (.malformedPci (f.byte 0) f.dlc) t))
      (fun t => .next (raise (.malformedPci (f.byte 0) f.dlc) t)) s := by
  rw [frameReceived, decodeFrame, h]
  rfl

theorem exec_pciSf (id : CanId) (payload padding : List Byte) (s : State) :
    exec (.pciSf id payload padding) s =
      whenReceived id .next (respSingle payload) (fun t => .next (ackSingle payload t)) s := rfl

theorem exec_pciFf (id : CanId) (total : BitVec 12) (six : List Byte) (s : State) :
    exec (.pciFf id total six) s = whenReceived id .next (respFirst total six) .next s := rfl

theorem exec_pciCf (id : CanId) (sn : BitVec 4) (data : List Byte) (s : State) :
    exec (.pciCf id sn data) s = whenReceived id .next (respConsecutive sn data) .next s := rfl

theorem exec_pciFc (id : CanId) (fs : FlowStatus) (bs st : Byte) (padding : List Byte) (s : State) :
    exec (.pciFc id fs bs st padding) s =
      whenReceived id (fun t => .next (fcReceived fs bs st t)) respFlowControl .next s := rfl

theorem keepsInv_rasmComplete {s : State} (h : Running s) (hop : isReassembleOp s.op = true) :
    KeepsInv (rasmComplete s) := by
  obtain ⟨t, he, hends⟩ := rasmComplete_ends hop
  rw [he]
  exact .next (inv_of_endsCommand (Running.forgetRx
    (s := { s with rasm := { s.rasm with phase := .complete }, rxLen := s.rasm.len }) h _) hends)

theorem Running.takePayload {s : State} (h : Running s) (payload : List Byte) : Running (takePayload payload s) :=
  Running.storeRx (s := { s with rasm := { s.rasm with len := BitVec.ofNat 12 payload.length } }) h 0 payload

theorem inv_ackSingle {s : State} (h : Running s) (payload : List Byte) : Inv (ackSingle payload s) := by
  have htaken := h.takePayload payload
  refine inv_of_endsCommand ?_ (ackSingle_ends payload s)
  exact Running.forgetRx
    (s := { takePayload payload s with
      rasm := { (takePayload payload s).rasm with phase := .complete }, rxLen := (takePayload payload s).rasm.len })
    htaken _

section
variable {s : State} (h : Inv s) (hctl : s.ctl = .respWait)
include h hctl

theorem respWait_facts : Running s ∧ s.port.valid = false ∧ isReassembleOp s.op = true ∧
    (s.rasm.phase = .idle ∨ s.rasm.phase = .accumulating ∧ s.rasm.len.toNat < s.rasm.exp.toNat) := by
  have hport : s.port.valid = false := by rw [h.control.port, hctl]; rfl
  refine ⟨running_of_inv h (by simp [hctl]), hport, h.control.respOp (.inl hctl), ?_⟩
  exact (h.control.respPhase hctl).imp id fun hacc => ⟨hacc, h.control.lacks (.inl hctl) hacc⟩

theorem keepsInv_respSingle (payload : List Byte) : KeepsInv (respSingle payload s) := by
  obtain ⟨hrunning, -, hop, hphase | ⟨hphase, -⟩⟩ := respWait_facts h hctl <;> rw [respSingle, hphase]
  · exact keepsInv_rasmComplete
      (Running.takePayload (s := { s with rasm := { s.rasm with mf := false } }) hrunning payload) hop
  · exact .next (inv_rasmFail hrunning _)

theorem inv_acceptFirst (total : BitVec 12) (six : List Byte) : Inv (acceptFirst total six s) := by
  obtain ⟨hrunning, hport, hop, -⟩ := respWait_facts h hctl
  by_cases hshort : total.toNat < 8
  · rw [acceptFirst, if_pos hshort]
    exact inv_rasmFail hrunning _
  · have hsix : (6 : BitVec 12).toNat < total.toNat := by
      simp only [BitVec.reduceToNat]
      omega
    have hstored : Running (startAccumulating total six s) := Running.storeRx
      (s := { s with rasm := { s.rasm with phase := .accumulating, len := 6, exp := total, seq := 1, mf := true } })
      hrunning 0 six
    rw [acceptFirst, if_neg hshort]
    dsimp only
    split
    · exact inv_of_running hstored (controlInv_rxFc rfl rfl hop rfl hsix)
    · exact inv_of_running hstored (controlInv_respWait hctl hport hop (.inr rfl) fun _ => hsix)

theorem keepsInv_respFirst (total : BitVec 12) (six : List Byte) : KeepsInv (respFirst total six s) := by
  obtain ⟨hrunning, -, -, hphase | ⟨hphase, -⟩⟩ := respWait_facts h hctl <;> rw [respFirst, hphase]
  · exact .next (inv_acceptFirst h hctl total six)
  · exact .next (inv_rasmFail hrunning _)

/-- The bytes appended never go past the length expected, so a message that is not complete lacks some. -/
theorem keepsInv_acceptConsecutive (sn : BitVec 4) (data : List Byte) (hphase : s.rasm.phase = .accumulating)
    (hlacks : s.rasm.len.toNat < s.rasm.exp.toNat) : KeepsInv (acceptConsecutive sn data s) := by
  obtain ⟨hrunning, hport, hop, -⟩ := respWait_facts h hctl
  have happended : Running (appendCf data s) := Running.storeRx
    (s := { s with rasm := (appendCf data s).rasm }) hrunning s.rasm.len.toNat (lacking data s)
  unfold acceptConsecutive
  split
  · exact .next (inv_rasmFail hrunning _)
  · dsimp only
    split
    · exact keepsInv_rasmComplete happended hop
    · next hmore =>
      have hle : (lacking data s).length ≤ s.rasm.exp.toNat - s.rasm.len.toNat := List.length_take_le _ _
      have hexp := s.rasm.exp.isLt
      have hlen : (appendCf data s).rasm.len.toNat = s.rasm.len.toNat + (lacking data s).length := by
        rw [appendCf_rasm, BitVec.toNat_ofNat]
        omega
      rw [← BitVec.toNat_inj, hlen, appendCf_rasm] at hmore
      refine .next (inv_of_running happended (controlInv_respWait hctl hport hop (.inr hphase) fun _ => ?_))
      rw [hlen, appendCf_rasm]
      dsimp only at hmore ⊢
      omega

theorem keepsInv_respConsecutive (sn : BitVec 4) (data : List Byte) : KeepsInv (respConsecutive sn data s) := by
  obtain ⟨-, -, -, hphase | ⟨hphase, hlacks⟩⟩ := respWait_facts h hctl <;> rw [respConsecutive, hphase]
  · exact .next h
  · exact keepsInv_acceptConsecutive h hctl sn data hphase hlacks

theorem keepsInv_respFlowControl : KeepsInv (respFlowControl s) := by
  obtain ⟨-, -, -, hphase | ⟨hphase, -⟩⟩ := respWait_facts h hctl <;> rw [respFlowControl, hphase]
  · exact .next h
  · exact .next h

end

section
variable {s : State} (h : Inv s)
include h

theorem sending_facts (hsend : sending s.ctl = true) : Running s ∧ isSendOp s.op = true ∧ s.rasm.phase = .idle := by
  refine ⟨running_of_inv h fun hidle => ?_, h.control.sendOp hsend, h.control.sendPhase hsend⟩
  rw [hidle] at hsend
  cases hsend

theorem inv_fcReceived (hctl : s.ctl = .fcWait) (fs : FlowStatus) (bs st : Byte) : Inv (fcReceived fs bs st s) := by
  obtain ⟨hrunning, hop, hphase⟩ := sending_facts h (by rw [hctl]; rfl)
  cases fs with
  | continueToSend =>
    have hleft := h.control.sendLeft (.inr (.inl hctl))
    exact inv_of_running hrunning (controlInv_sendCf
      (s := { s with tx := { s.tx with bs := bs, stUs := (stDecode st).2, bsCnt := 0 } }) hop hphase hleft.le)
  | wait | overflow => exact inv_raise hrunning _

/-- A received frame does one of four things, according to the control state. -/
theorem keepsInv_whenReceived {id : CanId} {fcWait respWait ackWait : State → Out}
    (hfc : s.ctl = .fcWait → KeepsInv (fcWait s)) (hresp : s.ctl = .respWait → KeepsInv (respWait s))
    (hack : s.ctl = .ackWait → Running s → KeepsInv (ackWait s)) :
    KeepsInv (whenReceived id fcWait respWait ackWait s) := by
  obtain he | ⟨-, hctl, he⟩ | ⟨-, hctl, he⟩ | ⟨-, hctl, he⟩ :=
    whenReceived_cases (id := id) (a := fcWait) (b := respWait) (c := ackWait) s <;> rw [he]
  · exact .next h
  · exact hfc hctl
  · exact hresp hctl
  · exact hack hctl (running_of_inv h (by simp [hctl]))

theorem keepsInv_frameReceived (f : Frame) : KeepsInv (frameReceived f s) := by
  obtain ⟨hbad, -⟩ | ⟨p, padding, -, -, he⟩ | ⟨total, six, -, -, he⟩ | ⟨sn, d, -, he⟩ |
    ⟨fs, bs, st, padding, -, he⟩ := decodeFrame_cases f
  · rw [frameReceived_malformed hbad]
    exact keepsInv_whenReceived h (fun hctl => .next (inv_raise (running_of_inv h (by simp [hctl])) _))
      (fun hctl => .next (inv_rasmFail (running_of_inv h (by simp [hctl])) _))
      (fun _ hrunning => .next (inv_raise hrunning _))
  · rw [frameReceived_ok he, exec_pciSf]
    exact keepsInv_whenReceived h (fun _ => .next h) (fun hctl => keepsInv_respSingle h hctl p)
      (fun _ hrunning => .next (inv_ackSingle hrunning p))
  · rw [frameReceived_ok he, exec_pciFf]
    exact keepsInv_whenReceived h (fun _ => .next h) (fun hctl => keepsInv_respFirst h hctl total six)
      (fun _ _ => .next h)
  · rw [frameReceived_ok he, exec_pciCf]
    exact keepsInv_whenReceived h (fun _ => .next h) (fun hctl => keepsInv_respConsecutive h hctl sn d)
      (fun _ _ => .next h)
  · rw [frameReceived_ok he, exec_pciFc]
    exact keepsInv_whenReceived h (fun hctl => .next (inv_fcReceived h hctl fs bs st))
      (fun hctl => keepsInv_respFlowControl h hctl) (fun _ _ => .next h)

/-! ### Answered frames (40_command_interface.md R180) -/

omit h in
/-- The end of a transfer, with no frame presented any more (43_transmitter.md R296). -/
theorem keepsInv_txDone (hrunning : Running s) (hport : s.port.valid = false) (hop : isSendOp s.op = true)
    (hphase : s.rasm.phase = .idle) : KeepsInv (txDone s) := by
  obtain ⟨-, he⟩ | ⟨hread, he⟩ | ⟨hwrite, he⟩ := txDone_cases hop <;> rw [he]
  · exact .next (inv_of_endsCommand hrunning (.resultOnly ..))
  · have hreassemble : isReassembleOp s.op = true := by rcases hread with hr | hr <;> rw [hr] <;> rfl
    refine .next (inv_of_running hrunning (controlInv_respWait rfl hport hreassemble (.inl hphase) fun hacc => ?_))
    rw [rasmStart_rasm, hphase] at hacc
    cases hacc
  · have hacks : isAckOp s.op = true := by rcases hwrite with hw | hw <;> rw [hw] <;> rfl
    exact .next (inv_of_running hrunning (controlInv_ackWait rfl hport hacks))

theorem keepsInv_txCfAcked (hctl : s.ctl = .txCf) : KeepsInv (txCfAcked (portTaken s)) := by
  obtain ⟨hrunning, hop, hphase⟩ := sending_facts h (by rw [hctl]; rfl)
  have hpos := h.control.sendPos hctl
  have hleft : s.tx.pos ≠ s.tx.len → s.tx.pos.toNat < s.tx.len.toNat := fun hmore =>
    lt_of_le_of_ne hpos fun heq => hmore (BitVec.eq_of_toNat_eq heq)
  obtain ⟨-, he⟩ | ⟨hmore, -, he⟩ | ⟨-, -, -, he⟩ | ⟨hmore, -, -, he⟩ := txCfAcked_cases (portTaken s) <;> rw [he]
  · exact keepsInv_txDone hrunning rfl hop hphase
  · exact .next (inv_of_running hrunning (controlInv_sendWait (.inl rfl) rfl hop hphase (hleft hmore)))
  · exact .next (inv_of_running hrunning (controlInv_sendCf hop hphase hpos))
  · exact .next (inv_of_running hrunning (controlInv_sendWait (.inr rfl) rfl hop hphase (hleft hmore)))

theorem inv_txRejected (hport : s.port.valid = true) : Inv (txRejected (portTaken s)) := by
  have hrunning : Running s := running_of_inv h fun hidle => by
    rw [h.control.port, hidle] at hport
    cases hport
  obtain ⟨-, he⟩ | ⟨-, he⟩ := txRejected_cases (portTaken s) <;> rw [he]
  · exact inv_raise (Running.forgetRx (s := portTaken s) hrunning _) _
  · exact inv_raise hrunning _

/-- The four states that present a frame take its answer. -/
theorem keepsInv_txAnswered (ok : Bool) (hport : s.port.valid = true) : KeepsInv (txAnswered ok s) := by
  cases ok with
  | false => exact .next (inv_txRejected h hport)
  | true =>
    rw [h.control.port] at hport
    cases hctl : s.ctl with
    | txSf =>
      obtain ⟨hrunning, hop, hphase⟩ := sending_facts h (by rw [hctl]; rfl)
      rw [txAnswered_txSf hctl]
      exact keepsInv_txDone hrunning rfl hop hphase
    | txFf =>
      obtain ⟨hrunning, hop, hphase⟩ := sending_facts h (by rw [hctl]; rfl)
      rw [txAnswered_txFf hctl]
      exact .next (inv_of_running hrunning
        (controlInv_sendWait (.inl rfl) rfl hop hphase (h.control.sendLeft (.inl hctl))))
    | txCf =>
      rw [txAnswered_txCf hctl]
      exact keepsInv_txCfAcked h hctl
    | rxFc =>
      have hphase := h.control.rxFcPhase hctl
      have hrunning : Running s := running_of_inv h (by simp [hctl])
      rw [txAnswered_rxFc hctl]
      exact .next (inv_of_running hrunning (controlInv_respWait rfl rfl
        (h.control.respOp (.inr hctl)) (.inr hphase) fun _ => h.control.lacks (.inr hctl) hphase))
    | idle | fcWait | stWait | respWait | ackWait =>
      rw [hctl] at hport
      cases hport

/-! ### Every input -/

theorem keepsInv_handleInput (i : Input) : KeepsInv (handleInput i s) := by
  cases i with
  | hostWrite addr width v =>
    rw [handleInput, hostWrite]
    split
    · split
      · exact keepsInv_settle (keepsInv_commandWritten v h)
      · exact keepsInv_settle (.next (inv_hostStore h addr.toNat v))
    · exact .refused _
  | hostRead addr width =>
    rw [handleInput, hostRead]
    split
    · exact .next (inv_env h _)
    · exact .refused _
  | rx =>
    rw [handleInput, rxEvent]
    split
    · split
      · exact .next h
      · exact keepsInv_settle (keepsInv_frameReceived (inv_env h _) _)
    · exact .next h
  | txAck ok =>
    rw [handleInput, txAckEvent]
    split
    · next hport => exact keepsInv_settle (keepsInv_txAnswered h ok hport)
    · exact .refused _
  | tick dt =>
    rw [handleInput, tickEvent]
    split
    · exact .refused _
    · refine keepsInv_settle (.next ?_)
      rw [advanceTimer]
      split
      · exact inv_timer h _
      · exact h
  | reset => exact .next (inv_resetEvent s)
  | frameArrives f => exact .next (inv_env h _)
  | busReady level => exact .next (inv_env h _)

theorem keepsInv_step : KeepsInv (step s) := by
  unfold step nextInput
  split
  · exact .next h
  · exact keepsInv_handleInput (inv_env h _) _

end

/-! ### InvalidArgument (30_encoding.md R134) -/

theorem mem_commandTable_of_isCommand {i : Instr} (h : isCommand i = true) : ∃ o, (o, i) ∈ commandTable := by
  cases i with
  | encSf | encFf | encCf | encFc | classify | tpRecv | tpSend | readDid | writeDid | readDtc | clearDtc | decEcuInfo
  | decSensor | encThresholds | decDtcList | lutDtc | lutStatus => simp [commandTable]
  | _ => cases h

theorem errorCode_ne_invalidArgument {e : CmdError} (h : e ≠ .invalidArgument) : errorCode e ≠ 0x11 := by
  cases e with
  | invalidArgument => exact absurd rfl h
  | _ => nofun

theorem errcode_of_endsCommand {s t : State} (h : EndsCommand s t) : t.status.errcode ≠ 0x11 := by
  cases h with
  | error e he => exact errorCode_ne_invalidArgument he
  | result k r0 r1 r2 r3 f m hm => nofun

theorem errcode_busStart {o : BitVec 8} {start : State → State} (hstart : StartsCommand o start) (s : State) :
    (busStart start (accept o s)).status.errcode ≠ 0x11 := by
  cases hready : s.env.busReady with
  | false =>
    rw [busStart_notReady (s := accept o s) hready]
    nofun
  | true =>
    obtain ⟨⟨hstatus, -, -⟩, -⟩ := hstart (busInit (accept o s))
    rw [busStart_ready (s := accept o s) hready, hstatus]
    nofun

/-! ### The statements -/

/-- Settles O12: a failed range check is the one way to an InvalidArgument. -/
theorem invalidArgumentExactlyWhenARangeCheckFails : Obligations.InvalidArgumentExactlyWhenARangeCheckFails := by
  intro s i hidle hcommand arg0 off len st outOfRange
  obtain ⟨o, hrow⟩ := mem_commandTable_of_isCommand hcommand
  obtain ⟨argsOk, rule, hexec, hargs, hrule⟩ := exec_command_cases hrow
  refine ⟨_, hexec s, fun hbad => ?_, fun hgood => ?_⟩
  · obtain ⟨error, frame, res, fout, bytes⟩ := pureFailure_raise o s .invalidArgument
    have hfails : argsOk s.regs = false := by
      rw [← Bool.not_eq_true, hargs, not_not]
      exact hbad
    rw [command_out_of_range hidle hfails]
    exact ⟨error, res, frame.regs, fout, frame.rxLen, bytes⟩
  · rw [command_accepted hidle ((hargs s.regs).mpr hgood)]
    obtain hends | ⟨start, rfl, hstart⟩ := hrule
    · exact errcode_of_endsCommand (hends _)
    · exact errcode_busStart hstart s

/-- Settles O59, input by input (`keepsInv_handleInput`). -/
theorem stepKeepsInv : Obligations.StepKeepsInv := by
  intro s t h hstep
  have hkeeps := keepsInv_step h
  rw [hstep] at hkeeps
  cases hkeeps with
  | next ht => exact ht

/-- Settles O60: an outcome that keeps the invariant is no fault. -/
theorem stepNeverFaults : Obligations.StepNeverFaults := by
  intro s h
  have hkeeps := keepsInv_step h
  generalize step s = o at hkeeps ⊢
  cases hkeeps <;> rfl

end Sys2Proof.Machine
end

section
/-! The proofs of the statements about received frames: what is discarded, what ends a wait, and the induction over the
frames of a whole payload. -/

namespace Sys2Proof.Machine

/-! ### Details of the errors of a wait (60_exceptions.md R402) -/

theorem bit_toNat (b : Bool) : (bit b).toNat = b.toNat := by cases b <;> rfl

theorem errorDetail_timeout_toNat (len : BitVec 12) (mf : Bool) :
    (errorDetail (.timeout len mf)).toNat = len.toNat + mf.toNat * 2 ^ 12 := by
  have hlen := len.isLt
  have hmf := mf.toNat_lt
  rw [errorDetail, or_shiftLeft_toNat] <;> simp [bit_toNat] <;> omega

theorem errorDetail_timeout (len : BitVec 12) (mf : Bool) :
    errorDetail (.timeout len mf) = BitVec.ofNat 32 (len.toNat + mf.toNat * 2 ^ 12) := by
  rw [← errorDetail_timeout_toNat, BitVec.ofNat_toNat, BitVec.setWidth_eq]

/-- Four fields put together, each above the one before. -/
theorem errorDetail_unexpectedServiceId_toNat (sid nrc : Byte) (valid empty : Bool) :
    (errorDetail (.unexpectedServiceId sid nrc valid empty)).toNat =
      sid.toNat + nrc.toNat * 2 ^ 8 + valid.toNat * 2 ^ 16 + empty.toNat * 2 ^ 17 := by
  have hsid := sid.isLt
  have hnrc := nrc.isLt
  have hvalid := valid.toNat_lt
  have hempty := empty.toNat_lt
  have hbytes : (sid.setWidth 32 ||| nrc.setWidth 32 <<< 8 : Word32).toNat = sid.toNat + nrc.toNat * 2 ^ 8 := by
    rw [or_shiftLeft_toNat] <;> simp <;> omega
  have hflag : (sid.setWidth 32 ||| nrc.setWidth 32 <<< 8 ||| bit valid <<< 16 : Word32).toNat =
      sid.toNat + nrc.toNat * 2 ^ 8 + valid.toNat * 2 ^ 16 := by
    rw [or_shiftLeft_toNat (by omega) (by rw [bit_toNat]; omega), hbytes, bit_toNat]
  rw [errorDetail, or_shiftLeft_toNat (by omega) (by rw [bit_toNat]; omega), hflag, bit_toNat]

theorem errorDetail_didMismatch_toNat (echo : Did) (short : Bool) :
    (errorDetail (.didMismatch echo short)).toNat = echo.toNat + short.toNat * 2 ^ 16 := by
  have hecho := echo.isLt
  have hshort := short.toNat_lt
  rw [errorDetail, or_shiftLeft_toNat] <;> simp [bit_toNat] <;> omega

/-- The detail of a DtcPayloadMalformed is its length, which 16 bits hold (60_exceptions.md R402). -/
theorem errorDetail_dtcPayloadMalformed {n : Nat} (h : n < 2 ^ 16) :
    errorDetail (.dtcPayloadMalformed n) = BitVec.ofNat 32 n :=
  BitVec.setWidth_ofNat_of_le_of_lt (by omega) h

/-! ### Frames that are discarded -/

theorem whenReceived_discarded {id : CanId} {a b c : State → Out} {s : State} (h : id ≠ s.regs.respId ∨ s.ctl = .idle) :
    whenReceived id a b c s = .next s := by
  by_cases hid : id = s.regs.respId
  · have hidle := h.resolve_left (not_not.mpr hid)
    simp [whenReceived, hid, hidle]
  · exact whenReceived_other hid

/-- A frame is ignored where the wait that is open ignores it, be it from RESP_ID or not. -/
theorem whenReceived_ignored {id : CanId} {a b c : State → Out} {s : State}
    (ha : s.ctl = .fcWait → a s = .next s) (hb : s.ctl = .respWait → b s = .next s)
    (hc : s.ctl = .ackWait → c s = .next s) : whenReceived id a b c s = .next s := by
  obtain he | ⟨-, hctl, he⟩ | ⟨-, hctl, he⟩ | ⟨-, hctl, he⟩ :=
    whenReceived_cases (id := id) (a := a) (b := b) (c := c) s <;> rw [he]
  · exact ha hctl
  · exact hb hctl
  · exact hc hctl

theorem frameReceived_discarded {f : Frame} {s : State} (h : f.id ≠ s.regs.respId ∨ s.ctl = .idle) :
    frameReceived f s = .next s := by
  obtain ⟨hbad, -⟩ | ⟨p, padding, -, -, he⟩ | ⟨total, six, -, -, he⟩ | ⟨sn, d, -, he⟩ |
    ⟨fs, bs, st, padding, -, he⟩ := decodeFrame_cases f
  · rw [frameReceived_malformed hbad, whenReceived_discarded h]
  · rw [frameReceived_ok he, exec_pciSf, whenReceived_discarded h]
  · rw [frameReceived_ok he, exec_pciFf, whenReceived_discarded h]
  · rw [frameReceived_ok he, exec_pciCf, whenReceived_discarded h]
  · rw [frameReceived_ok he, exec_pciFc, whenReceived_discarded h]

theorem responseArrived_noWindow {s : State} (payload : List Byte) (hresp : s.ctl ≠ .respWait)
    (hack : s.ctl ≠ .ackWait) : responseArrived payload s = .next s := by
  unfold responseArrived
  split
  · next hctl => exact absurd hctl hresp
  · next hctl => exact absurd hctl hack
  all_goals rfl

/-! ### Responses in one piece -/

/-- A response row runs on the payload it is decoded from. -/
theorem exec_of_decodeResponse {p : List Byte} {i : Instr} (h : decodeResponse p = .ok i) (s : State) :
    exec i s = responseArrived p s := by
  unfold decodeResponse at h
  split at h
  · cases h
  · next sid rest =>
    split_ifs at h with hlen h1 h2 h3 h4 h5
    · cases h; rw [h1]; rfl
    · cases h; rw [h2]; rfl
    · cases h; rw [h3]; rfl
    · cases h; rw [h4]; rfl
    · cases h; rw [h5]; rfl

theorem responseArrived_respWait {s : State} (h : s.ctl = .respWait) (p : List Byte) :
    responseArrived p s = rasmComplete (takePayload p s) := by
  rw [responseArrived, h]

theorem responseArrived_ackWait {s : State} (h : s.ctl = .ackWait) (p : List Byte) :
    responseArrived p s = .next (ackSingle p s) := by
  rw [responseArrived, h]

theorem exec_pciSf_idle {s : State} (hctl : s.ctl = .respWait) (hphase : s.rasm.phase = .idle)
    (payload padding : List Byte) :
    exec (.pciSf s.regs.respId payload padding) s =
      rasmComplete (takePayload payload { s with rasm := { s.rasm with mf := false } }) := by
  rw [exec_pciSf, whenReceived_respWait hctl, respSingle, hphase]

theorem exec_pciSf_ackWait {s : State} (hctl : s.ctl = .ackWait) (payload padding : List Byte) :
    exec (.pciSf s.regs.respId payload padding) s = .next (ackSingle payload s) := by
  rw [exec_pciSf, whenReceived_ackWait hctl]

/-! ### A payload in RXBUF -/

theorem rxByte_of_listed {s : State} {k : Nat} {v : Byte} (h : memGet s.mem (rxBase + k) = some v) :
    rxByte s k = v := by
  rw [rxByte, byteAt, h]

/-- `t` is `s` with the payload `p` reassembled and nothing done with it yet. -/
structure PayloadHeld (s t : State) (p : List Byte) : Prop where
  frame : ReceiveFrame s t
  outbuf : sameOutbuf s t
  status : t.status = s.status
  res : t.res = s.res
  timer : t.timer = s.timer
  ctl : t.ctl = s.ctl
  phase : t.rasm.phase = .complete
  rxLen : t.rxLen.toNat = p.length
  len : t.rasm.len.toNat = p.length
  bytes : ∀ k, k < p.length → rxByte t k = p.getD k 0

/-- What is listed in RXBUF when the reassembly ends is the payload held. -/
theorem payloadHeld_rasmTaken {s x : State} {p : List Byte} (h : WaitGoesOn s x) (hctl : x.ctl = s.ctl)
    (hlen : x.rasm.len.toNat = p.length)
    (hlisted : ∀ k, k < p.length → memGet x.mem (rxBase + k) = some (p.getD k 0)) :
    PayloadHeld s (rasmTaken x) p := by
  let y : State := { x with rasm := { x.rasm with phase := .complete }, rxLen := x.rasm.len }
  have houtside : ∀ a, a < rxBase ∨ outBase ≤ a → byteAt (rasmTaken x) a = byteAt x a := fun a ha =>
    byteAt_forgetRx_outside y x.rasm.len.toNat a ha
  obtain ⟨⟨⟨hregs, hfout, henv, hop, hdid, hlim, hrej⟩, htx, htxbuf⟩, houtbuf, hstatus, hres, -, htimer, -⟩ := h
  exact {
    frame := ⟨⟨hregs, hfout, henv, hop, hdid, hlim, hrej⟩, htx, fun a ha => (houtside a (.inl ha)).trans (htxbuf a ha)⟩
    outbuf := fun a ha => (houtside a (.inr ha)).trans (houtbuf a ha)
    status := hstatus
    res := hres
    timer := htimer
    ctl := hctl
    phase := rfl
    rxLen := hlen
    len := hlen
    bytes := fun k hk => byteAt_forgetRx_listed y x.rasm.len.toNat (rxBase + k) _ (hlisted k hk) (by omega) }

/-- A payload taken in one piece, whatever the reassembly state was. -/
theorem payloadHeld_takePayload {p : List Byte} (hp : p.length ≤ 4095) (s : State) (r : Reassembly) :
    PayloadHeld s (rasmTaken (takePayload p { s with rasm := r })) p := by
  refine payloadHeld_rasmTaken ?_ rfl ?_ fun k hk => ?_
  · exact waitGoesOn_storeRx s (k := 0) (bs := p) (by omega) { r with len := BitVec.ofNat 12 p.length } s.ctl s.port
  · rw [takePayload_rasm, BitVec.toNat_ofNat]
    omega
  · exact memGet_storeRx (s := { s with rasm := { r with len := BitVec.ofNat 12 p.length } }) (k := 0) (by omega)
      (by omega) (by omega)

section
variable {s t : State} {p : List Byte}

/-- A response that is taken stays in RXBUF when its command ends. -/
theorem PayloadHeld.taken (h : PayloadHeld s t p) {u : State} (hflight : FlightFrame s u) (htx : u.tx = t.tx)
    (hrxLen : u.rxLen = t.rxLen) (hrasm : u.rasm = t.rasm) (hbytes : ∀ a, a < outBase → byteAt u a = byteAt t a) :
    ResponseTaken s u p where
  frame := ⟨hflight, htx.trans h.frame.tx, fun a ha =>
    (hbytes a (lt_trans ha (by decide))).trans (h.frame.txbuf a ha)⟩
  rxLen := by rw [hrxLen, h.rxLen]
  phase := by rw [hrasm, h.phase]
  len := by rw [hrasm, h.len]
  bytes k hk := by
    have hmax := t.rxLen.isLt
    have hlen := h.rxLen
    have hin : rxBase + k < outBase := by rw [rxBase, outBase]; omega
    rw [rxByte, hbytes _ hin]
    exact h.bytes k hk

/-- A held payload whose command fails. -/
theorem PayloadHeld.failure (h : PayloadHeld s t p) (e : CmdError) :
    ResponseFailure s (raise e t) p (errorCode e) (errorDetail e) where
  taken := h.taken ⟨h.frame.flight.regs, h.frame.flight.fout, h.frame.flight.env, h.frame.flight.op,
    h.frame.flight.didCur, h.frame.flight.respLim, h.frame.flight.cmdRejected⟩ rfl rfl rfl fun _ _ => rfl
  error := failed_raise e t
  res := h.res
  outbuf := h.outbuf

/-- A held payload whose command ends with a result, with at most OUTBUF written. -/
theorem PayloadHeld.success (h : PayloadHeld s t p) (k : ResKind) (r0 r1 r2 r3 : Word32) {m : List Host.Cell}
    (hm : ∀ a, a < outBase → byteAt { t with mem := m } a = byteAt t a) :
    ResponseSuccess s (finish k r0 r1 r2 r3 { t with mem := m }) p (resKindCode k) r0 r1 r2 r3 where
  taken := h.taken ⟨h.frame.flight.regs, h.frame.flight.fout, h.frame.flight.env, h.frame.flight.op,
    h.frame.flight.didCur, h.frame.flight.respLim, h.frame.flight.cmdRejected⟩ rfl rfl rfl hm
  result := succeeded_finish k r0 r1 r2 r3 _
  errDetail := by rw [finish_status, h.status]

/-- A held payload whose command ends with a result and writes no buffer. -/
theorem PayloadHeld.successOnly (h : PayloadHeld s t p) (k : ResKind) (r0 r1 r2 r3 : Word32) :
    ResponseSuccess s (finish k r0 r1 r2 r3 t) p (resKindCode k) r0 r1 r2 r3 ∧
      sameOutbuf s (finish k r0 r1 r2 r3 t) :=
  ⟨h.success k r0 r1 r2 r3 (m := t.mem) fun _ _ => rfl, h.outbuf⟩

theorem PayloadHeld.len_setWidth (h : PayloadHeld s t p) : t.rasm.len.setWidth 32 = BitVec.ofNat 32 p.length := by
  rw [← h.len]
  exact (BitVec.ofNat_toNat 32 t.rasm.len).symm

end

/-- A response in one piece keeps the rest of the reassembly state and the frame of the TX port. -/
theorem wholeResponse_of_endsCommand {p : List Byte} {s t : State} {b : Bool}
    (h : EndsCommand (rasmTaken (takePayload p { s with rasm := { s.rasm with mf := b } })) t) :
    WholeResponse s t ∧ t.rasm.mf = b := by
  cases h with
  | error e he => exact ⟨⟨rfl, rfl⟩, rfl⟩
  | result k r0 r1 r2 r3 f m hm => exact ⟨⟨rfl, rfl⟩, rfl⟩

/-! ### A Consecutive Frame in sequence (42_reassembly.md R248) -/

theorem lacking_eq (data : List Byte) (s : State) :
    lacking data s = data.take (min data.length (s.rasm.exp.toNat - s.rasm.len.toNat)) := by
  rw [lacking, List.take_eq_take_min, Nat.min_comm]

theorem appendCf_len {data : List Byte} {s : State} (h : s.rasm.len.toNat < s.rasm.exp.toNat) :
    (appendCf data s).rasm.len.toNat = s.rasm.len.toNat + (lacking data s).length := by
  have hexp := s.rasm.exp.isLt
  have hle : (lacking data s).length ≤ s.rasm.exp.toNat - s.rasm.len.toNat := List.length_take_le _ _
  rw [appendCf_rasm, BitVec.toNat_ofNat]
  omega

theorem waitGoesOn_appendCf (data : List Byte) {s : State} (h : s.rasm.len.toNat < s.rasm.exp.toNat) :
    WaitGoesOn s (appendCf data s) := by
  have hexp := s.rasm.exp.isLt
  have hle : (lacking data s).length ≤ s.rasm.exp.toNat - s.rasm.len.toNat := List.length_take_le _ _
  exact waitGoesOn_storeRx s (k := s.rasm.len.toNat) (bs := lacking data s) (by omega) (appendCf data s).rasm s.ctl
    s.port

theorem exec_pciCf_inSequence {s : State} (hctl : s.ctl = .respWait) (hphase : s.rasm.phase = .accumulating)
    (data : List Byte) :
    exec (.pciCf s.regs.respId s.rasm.seq data) s =
      if (appendCf data s).rasm.len = s.rasm.exp then rasmComplete (appendCf data s) else .next (appendCf data s) := by
  rw [exec_pciCf_accumulating hctl hphase, acceptConsecutive, if_neg (not_not.mpr rfl)]
  rfl

/-! ### The frames of a whole payload (42_reassembly.md R256, R257) -/

theorem waitGoesOn_trans {s t u : State} (h : WaitGoesOn s t) (h' : WaitGoesOn t u) : WaitGoesOn s u where
  frame := {
    flight := {
      regs := h'.frame.flight.regs.trans h.frame.flight.regs
      fout := h'.frame.flight.fout.trans h.frame.flight.fout
      env := h'.frame.flight.env.trans h.frame.flight.env
      op := h'.frame.flight.op.trans h.frame.flight.op
      didCur := h'.frame.flight.didCur.trans h.frame.flight.didCur
      respLim := h'.frame.flight.respLim.trans h.frame.flight.respLim
      cmdRejected := h'.frame.flight.cmdRejected.trans h.frame.flight.cmdRejected }
    tx := h'.frame.tx.trans h.frame.tx
    txbuf := fun a ha => (h'.frame.txbuf a ha).trans (h.frame.txbuf a ha) }
  outbuf a ha := (h'.outbuf a ha).trans (h.outbuf a ha)
  status := h'.status.trans h.status
  res := h'.res.trans h.res
  rxLen := h'.rxLen.trans h.rxLen
  timer := h'.timer.trans h.timer
  draws := h'.draws.trans h.draws

/-- `t` is `s` with the first `n` bytes of the payload `p` received in its first frames. -/
structure PartlyReceived (s t : State) (p : List Byte) (n : Nat) : Prop where
  wait : WaitGoesOn s t
  ctl : t.ctl = .respWait
  phase : t.rasm.phase = .accumulating
  exp : t.rasm.exp.toNat = p.length
  len : t.rasm.len.toNat = n
  mf : t.rasm.mf = true
  listed : ∀ k, k < n → memGet t.mem (rxBase + k) = some (p.getD k 0)

section
variable {s t : State} {p : List Byte} {n : Nat}

/-- A Consecutive Frame with the next bytes of the payload appends exactly these. -/
theorem PartlyReceived.append (h : PartlyReceived s t p n) (hn : n < p.length) :
    lacking ((p.drop n).take 7) t = (p.drop n).take 7 ∧
      PartlyReceived s (appendCf ((p.drop n).take 7) t) p (n + ((p.drop n).take 7).length) := by
  have hexp := t.rasm.exp.isLt
  obtain ⟨hwait, hctl, hphase, hexpected, hlen, hmf, hlisted⟩ := h
  have hlacks : t.rasm.len.toNat < t.rasm.exp.toNat := by omega
  have hdata : lacking ((p.drop n).take 7) t = (p.drop n).take 7 := by
    rw [lacking]
    apply List.take_of_length_le
    rw [List.length_take, List.length_drop]
    omega
  have hrange : n + ((p.drop n).take 7).length ≤ p.length := by
    rw [List.length_take, List.length_drop]
    omega
  refine ⟨hdata, waitGoesOn_trans hwait (waitGoesOn_appendCf _ hlacks), hctl, hphase, hexpected, ?_, hmf,
    fun k hk => ?_⟩
  · rw [appendCf_len hlacks, hdata, hlen]
  · rw [appendCf_mem, hdata, hlen]
    by_cases hold : k < n
    · rw [memGet_memStoreBytes_outside _ _ _ _ (by omega)]
      exact hlisted k hold
    · have hstored := memGet_storeRx (s := t) (k := n) (j := k) (bs := (p.drop n).take 7) (by omega) hk (by omega)
      have hbyte : ((p.drop n).take 7).getD (k - n) 0 = p.getD k 0 := by
        have hin : k - n < 7 := by rw [List.length_take] at hk; omega
        have hsum : n + (k - n) = k := by omega
        rw [List.getD_eq_getElem?_getD, List.getElem?_take_of_lt hin, List.getElem?_drop, hsum,
          List.getD_eq_getElem?_getD]
      rw [hbyte] at hstored
      exact hstored

/-- A complete reassembly holds the payload. -/
theorem PartlyReceived.held (h : PartlyReceived s t p p.length) (hctl : s.ctl = .respWait) :
    PayloadHeld s (rasmTaken t) p :=
  payloadHeld_rasmTaken h.wait (h.ctl.trans hctl.symm) h.len h.listed

end

theorem deliver_cons_next {i : Instr} {is : List Instr} {s t : State} (h : exec i s = .next t) (hctl : t.ctl ≠ .rxFc) :
    deliver (i :: is) s = deliver is t := by
  rw [deliver, h, answerFlowControl, if_neg hctl]

theorem deliver_cons_rxFc {i : Instr} {is : List Instr} {s t : State} (h : exec i s = .next t) (hctl : t.ctl = .rxFc) :
    deliver (i :: is) s = deliver is (rxFcAcked (portTaken t)) := by
  rw [deliver, h, answerFlowControl, if_pos hctl, txAnswered_rxFc hctl]

/-- A frame that completes a reassembly is the last one. -/
theorem deliver_last {i : Instr} {s x : State} (h : exec i s = rasmComplete x) (hop : isReassembleOp x.op = true) :
    deliver [i] s = rasmComplete x := by
  obtain ⟨t, he, hends⟩ := rasmComplete_ends hop
  have hidle : t.ctl = .idle := by cases hends <;> rfl
  rw [deliver_cons_next (h.trans he) (by rw [hidle]; decide), he]
  rfl

/-- The Consecutive Frames of the rest of a payload, by induction on their number: each appends its bytes and the last
one completes the reassembly. -/
theorem deliver_consecutiveFrames {s : State} {p : List Byte} (hop : isReassembleOp s.op = true) (fuel : Nat) :
    ∀ {t : State} {n : Nat}, PartlyReceived s t p n → n < p.length → p.length - n ≤ fuel →
      ∃ x, PartlyReceived s x p p.length ∧
        deliver (consecutiveFrames s.regs.respId fuel t.rasm.seq (p.drop n)) t = rasmComplete x := by
  induction fuel with
  | zero => intro t n _ hn hfuel; omega
  | succ fuel ih =>
    intro t n h hn hfuel
    obtain ⟨hdata, hnext⟩ := h.append hn
    have hlen : ((p.drop n).take 7).length = min 7 (p.length - n) := by rw [List.length_take, List.length_drop]
    have hexpected : (appendCf ((p.drop n).take 7) t).rasm.exp = t.rasm.exp := rfl
    have hexec := exec_pciCf_inSequence h.ctl h.phase ((p.drop n).take 7)
    rw [h.wait.frame.flight.regs] at hexec
    have hframes : consecutiveFrames s.regs.respId (fuel + 1) t.rasm.seq (p.drop n) =
        .pciCf s.regs.respId t.rasm.seq ((p.drop n).take 7) ::
          consecutiveFrames s.regs.respId fuel (t.rasm.seq + 1) (p.drop (n + 7)) := by
      rw [← List.drop_drop]
      cases hrest : p.drop n with
      | nil => rw [List.drop_eq_nil_iff] at hrest; omega
      | cons b bs => rfl
    by_cases hlast : p.length ≤ n + 7
    · have hall : n + ((p.drop n).take 7).length = p.length := by omega
      have hfull : (appendCf ((p.drop n).take 7) t).rasm.len = t.rasm.exp := by
        apply BitVec.eq_of_toNat_eq
        rw [hnext.len, h.exp, hall]
      rw [hall] at hnext
      rw [if_pos hfull] at hexec
      refine ⟨_, hnext, ?_⟩
      have hdone : consecutiveFrames s.regs.respId fuel (t.rasm.seq + 1) (p.drop (n + 7)) = [] := by
        rw [List.drop_of_length_le hlast]
        cases fuel <;> rfl
      rw [hframes, hdone]
      exact deliver_last hexec (by rw [hnext.wait.frame.flight.op, hop])
    · have hseven : ((p.drop n).take 7).length = 7 := by omega
      have hmore : (appendCf ((p.drop n).take 7) t).rasm.len ≠ t.rasm.exp := by
        rw [Ne, ← BitVec.toNat_inj, hnext.len, h.exp]
        omega
      rw [hseven] at hnext
      rw [if_neg hmore] at hexec
      obtain ⟨x, hx, hdeliver⟩ := ih hnext (by omega) (by omega)
      refine ⟨x, hx, ?_⟩
      rw [hframes, deliver_cons_next hexec (by rw [hnext.ctl]; decide)]
      exact hdeliver

/-- A First Frame leaves its six bytes received, the Flow Control frame it may have asked for answered. -/
theorem deliver_pciFf {s : State} {p : List Byte} (hctl : s.ctl = .respWait) (hphase : s.rasm.phase = .idle)
    (hlong : 7 < p.length) (hp : p.length ≤ 4095) (is : List Instr) :
    ∃ t, PartlyReceived s t p 6 ∧ t.rasm.seq = 1 ∧
      deliver (.pciFf s.regs.respId (BitVec.ofNat 12 p.length) (p.take 6) :: is) s = deliver is t := by
  have htotal : (BitVec.ofNat 12 p.length).toNat = p.length := by rw [BitVec.toNat_ofNat]; omega
  have hsix : (p.take 6).length = 6 := List.length_take_of_le (by omega)
  have hexec := exec_pciFf_idle hctl hphase (BitVec.ofNat 12 p.length) (p.take 6)
  obtain ⟨c, port, heq, hoff, hon⟩ := acceptFirst_starts (p.take 6) s (htotal.symm ▸ hlong)
  rw [heq] at hexec
  have hreceived : ∀ q, PartlyReceived s
      { storeRx s 0 (p.take 6) with
        rasm := { s.rasm with
          phase := .accumulating, len := 6, exp := BitVec.ofNat 12 p.length, seq := 1, mf := true }
        ctl := .respWait
        port := q } p 6 := fun q => {
    wait := waitGoesOn_storeRx s (k := 0) (bs := p.take 6) (by omega) _ _ _
    ctl := rfl
    phase := rfl
    exp := htotal
    len := rfl
    mf := rfl
    listed := fun k hk => by
      have hstored := memGet_storeRx (s := s) (k := 0) (j := k) (bs := p.take 6) (by omega) (by omega) (by omega)
      rw [List.getD_eq_getElem?_getD, Nat.sub_zero, List.getElem?_take_of_lt hk, ← List.getD_eq_getElem?_getD] at hstored
      exact hstored }
  cases hfc : s.regs.cfg.rxFcEn with
  | false =>
    obtain ⟨rfl, rfl⟩ := hoff hfc
    refine ⟨_, hctl ▸ hreceived s.port, rfl, ?_⟩
    rw [deliver_cons_next hexec (by dsimp only; rw [hctl]; decide), hctl]
  | true =>
    obtain ⟨rfl, rfl⟩ := hon hfc
    exact ⟨_, hreceived _, rfl, deliver_cons_rxFc hexec rfl⟩

/-- Delivered in its frames, whatever their number, a payload completes the reassembly and is held in RXBUF. -/
theorem deliver_framesOf {s : State} {p : List Byte} (hctl : s.ctl = .respWait) (hop : isReassembleOp s.op = true)
    (hphase : s.rasm.phase = .idle) (hp : p.length ≤ 4095) :
    ∃ x, deliver (framesOf s.regs.respId p) s = rasmComplete x ∧ PayloadHeld s (rasmTaken x) p ∧
      x.rasm.mf = decide (7 < p.length) := by
  by_cases hshort : p.length ≤ 7
  · rw [framesOf, if_pos hshort]
    refine ⟨_, deliver_last (exec_pciSf_idle hctl hphase p []) hop, payloadHeld_takePayload hp s _, ?_⟩
    exact (decide_eq_false (by omega)).symm
  · obtain ⟨t, ht, hseq, hfirst⟩ := deliver_pciFf hctl hphase (by omega) hp
      (consecutiveFrames s.regs.respId p.length 1 (p.drop 6))
    obtain ⟨x, hx, hrest⟩ := deliver_consecutiveFrames hop p.length ht (by omega) (by omega)
    rw [hseq] at hrest
    refine ⟨x, ?_, hx.held hctl, hx.mf.trans (decide_eq_true (by omega)).symm⟩
    rw [framesOf, if_neg hshort, segmented, hfirst, hrest]

/-! ### The statements -/

/-- Settles O42, by the induction over the frames (`deliver_framesOf`). -/
theorem tpRecvReassemblesEveryPayload : Obligations.TpRecvReassemblesEveryPayload := by
  intro s p hctl hop hphase hp
  obtain ⟨x, hdeliver, hheld, hmf⟩ := deliver_framesOf hctl (by rw [hop]; rfl) hphase hp
  have hxop : x.op = opTpRecv := hheld.frame.flight.op.trans hop
  have hbit : bit x.rasm.mf = if p.length ≤ 7 then 0 else 1 := by
    rw [hmf]
    by_cases hshort : p.length ≤ 7 <;> simp [bit, hshort]
  have hlen : x.rasm.len.setWidth 32 = BitVec.ofNat 32 p.length := hheld.len_setWidth
  obtain ⟨hsuccess, houtbuf⟩ := hheld.successOnly .payload (x.rasm.len.setWidth 32) (bit x.rasm.mf) 0 0
  rw [rasmComplete_tpRecv hxop] at hdeliver
  rw [hlen, hbit] at hdeliver hsuccess houtbuf
  exact ⟨_, hdeliver, houtbuf, hsuccess⟩

/-- Settles O9: both windows take the payload as the row of the response does. -/
theorem singleFramesRunTheirResponseRows : Obligations.SingleFramesRunTheirResponseRows := by
  intro s i payload padding hdec
  refine ⟨fun hctl hphase => ?_, fun hctl => ?_⟩ <;> rw [exec_of_decodeResponse hdec]
  · rw [exec_pciSf_idle hctl hphase]
    exact (responseArrived_respWait (s := { s with rasm := { s.rasm with mf := false } }) hctl payload).symm
  · rw [exec_pciSf_ackWait hctl, responseArrived_ackWait hctl]

/-- Settles O36: the payload of a Single Frame is held, and TP_RECV finishes with it. -/
theorem singleFrameCompletesTpRecv : Obligations.SingleFrameCompletesTpRecv := by
  intro s payload padding hctl hop hphase hlen
  let x := takePayload payload { s with rasm := { s.rasm with mf := false } }
  have hheld : PayloadHeld s (rasmTaken x) payload := payloadHeld_takePayload (by omega) s _
  obtain ⟨hsuccess, houtbuf⟩ := hheld.successOnly .payload (BitVec.ofNat 32 payload.length) 0 0 0
  obtain ⟨hwhole, hmf⟩ := wholeResponse_of_endsCommand (s := s) (p := payload) (b := false) (.resultOnly ..)
  refine ⟨_, ?_, hsuccess, houtbuf, hwhole, hmf⟩
  have hword : x.rasm.len.setWidth 32 = BitVec.ofNat 32 payload.length := hheld.len_setWidth
  rw [exec_pciSf_idle hctl hphase, rasmComplete_tpRecv (s := x) hop, hword]
  rfl

/-- Settles O38: the frame appends what the message lacks, and the length reached decides. -/
theorem consecutiveFrameInSequenceIsAppended : Obligations.ConsecutiveFrameInSequenceIsAppended := by
  intro s data hctl hphase hlacks hdata len k
  have hexp := s.rasm.exp.isLt
  have hbytes : lacking data s = data.take k := lacking_eq data s
  have hk : (lacking data s).length = k := by rw [hbytes, List.length_take]; omega
  have hlen : (appendCf data s).rasm.len.toNat = len + k := (appendCf_len hlacks).trans (by rw [hk])
  have hexec := exec_pciCf_inSequence hctl hphase data
  have hread : rxBytes (appendCf data s) len k = data.take k := by
    rw [← hbytes, ← hk]
    exact rxBytes_storeRx { s with rasm := (appendCf data s).rasm } len (lacking data s)
  refine ⟨fun hmore => ?_, fun hfull hop => ?_⟩
  · have hne : (appendCf data s).rasm.len ≠ s.rasm.exp := by
      rw [Ne, ← BitVec.toNat_inj, hlen]
      omega
    rw [if_neg hne] at hexec
    refine ⟨_, hexec, waitGoesOn_appendCf data hlacks, hctl, rfl, by rw [appendCf_rasm, hk], fun a ha => ?_, hread⟩
    exact byteAt_storeRx_outside (s := { s with rasm := (appendCf data s).rasm }) (k := len) (bs := lacking data s)
      (by omega)
  · have heq : (appendCf data s).rasm.len = s.rasm.exp := BitVec.eq_of_toNat_eq (by rw [hlen, hfull])
    have hwait := waitGoesOn_appendCf data hlacks
    rw [if_pos heq, rasmComplete_tpRecv (s := appendCf data s) hop] at hexec
    let y : State := { appendCf data s with
      rasm := { (appendCf data s).rasm with phase := .complete }, rxLen := (appendCf data s).rasm.len }
    have houtside : ∀ a, a < rxBase ∨ outBase ≤ a → byteAt (rasmTaken (appendCf data s)) a =
        byteAt (appendCf data s) a := fun a ha => byteAt_forgetRx_outside y _ a ha
    have hlisted : ∀ j v, j < len + k → memGet (appendCf data s).mem (rxBase + j) = some v →
        rxByte (rasmTaken (appendCf data s)) j = v := fun j v hj hv =>
      byteAt_forgetRx_listed y (appendCf data s).rasm.len.toNat (rxBase + j) v hv (by omega)
    refine ⟨_, hexec, ⟨⟨rfl, rfl, rfl, rfl, rfl, rfl, rfl⟩, rfl, fun a ha => ?_⟩, fun a ha => ?_, ?_, rfl, rfl, heq, ?_,
      ?_, fun j v hj hv => ?_⟩
    · exact (houtside a (.inl ha)).trans (hwait.frame.txbuf a ha)
    · exact (houtside a (.inr ha)).trans (hwait.outbuf a ha)
    · rw [heq]
      exact succeeded_finish .payload _ _ _ _ _
    · exact congrArg
        (fun l : BitVec 12 => { s.rasm with phase := .complete, len := l, seq := s.rasm.seq + 1 }) heq
    · rw [← hread]
      refine List.map_congr_left fun j hj => ?_
      have hin : j < k := List.mem_range.mp hj
      have hstored := memGet_storeRx (s := s) (k := len) (j := len + j) (bs := lacking data s) (by omega) (by omega)
        (by omega)
      exact (hlisted (len + j) _ (by omega) hstored).trans (rxByte_of_listed (s := appendCf data s) hstored).symm
    · refine hlisted j v (by omega) ?_
      exact (memGet_storeRx_outside (s := s) (k := len) (bs := lacking data s) (by omega)).trans hv

/-- Settles O40, state by state. -/
theorem ignoredFramesChangeNothing : Obligations.IgnoredFramesChangeNothing := by
  intro s id payload padding six data rest total sn fs bs st single first consecutive flowControl
  have hsingle : single = _ := exec_pciSf id payload padding s
  have hfirst : first = _ := exec_pciFf id total six s
  have hconsecutive : consecutive = _ := exec_pciCf id sn data s
  have hflowControl : flowControl = _ := exec_pciFc id fs bs st padding s
  rw [hsingle, hfirst, hconsecutive, hflowControl]
  refine ⟨fun h => ⟨whenReceived_discarded h, whenReceived_discarded h, whenReceived_discarded h,
    whenReceived_discarded h, fun f hf => frameReceived_discarded (hf.symm ▸ h)⟩, fun hctl => ⟨?_, ?_, ?_⟩,
    fun hctl hphase => ⟨?_, ?_⟩, fun hctl hphase => ?_, fun hctl => ⟨?_, ?_, ?_⟩, fun hready => ?_,
    fun hresp hack => ⟨?_, ?_, ?_, ?_, ?_⟩⟩
  · exact whenReceived_ignored (fun _ => rfl) (by simp [hctl]) (by simp [hctl])
  · exact whenReceived_ignored (fun _ => rfl) (by simp [hctl]) (by simp [hctl])
  · exact whenReceived_ignored (fun _ => rfl) (by simp [hctl]) (by simp [hctl])
  · exact whenReceived_ignored (fun _ => rfl) (fun _ => by rw [respConsecutive, hphase]) (fun _ => rfl)
  · exact whenReceived_ignored (by simp [hctl]) (fun _ => by rw [respFlowControl, hphase]) (fun _ => rfl)
  · exact whenReceived_ignored (by simp [hctl]) (fun _ => by rw [respFlowControl, hphase]) (fun _ => rfl)
  · exact whenReceived_ignored (fun _ => rfl) (by simp [hctl]) (fun _ => rfl)
  · exact whenReceived_ignored (fun _ => rfl) (by simp [hctl]) (fun _ => rfl)
  · exact whenReceived_ignored (by simp [hctl]) (by simp [hctl]) (fun _ => rfl)
  · rw [rxEvent, if_neg (by simp [hready])]
  all_goals exact responseArrived_noWindow _ hresp hack

/-- Settles O41: each wait takes a malformed frame with the same error. -/
theorem malformedFrameEndsTheWait : Obligations.MalformedFrameEndsTheWait := by
  intro s f hid hbad detail
  have hdetail : detail = errorDetail (.malformedPci (f.byte 0) f.dlc) := (errorDetail_malformedPci _ f.le8).symm
  rw [hdetail, frameReceived_malformed hbad, hid]
  refine ⟨fun hctl => ⟨_, ?_, flightFails_raise (.malformedPci (f.byte 0) f.dlc) s⟩,
    fun hctl => ⟨_, whenReceived_respWait hctl, reassemblyFails_rasmFail (.malformedPci (f.byte 0) f.dlc) s⟩⟩
  obtain hctl | hctl := hctl
  · exact whenReceived_fcWait hctl
  · exact whenReceived_ackWait hctl

/-- Settles O53: a limit that is not reached, then each wait whose limit is. -/
theorem expiredWaitsEnd : Obligations.ExpiredWaitsEnd := by
  intro s t
  refine ⟨fun hrunning => if_neg (Nat.not_le.mpr hrunning), fun hexpired => ?_⟩
  have ht : t = expire s := if_pos hexpired
  rw [ht]
  refine ⟨fun hctl => ?_, fun hctl => ?_, fun hctl => ?_, fun hctl hop => ?_, fun hctl hop => ?_, fun hctl => ?_⟩
  · rw [expire, hctl]
    exact flightFails_raise (.flowControlTimeout s.tx.pos) s
  · rw [expire, hctl]
    exact ⟨sendFrame_update .., sendCf_presents s, rfl, rfl, rfl, rfl⟩
  · rw [expire, hctl, ← errorDetail_timeout]
    exact reassemblyFails_rasmFail (.timeout s.rasm.len s.rasm.mf) s
  · rw [expire, hctl, ackTimeout, if_pos hop]
    exact flightFails_raise (.writeAckNotObserved true) s
  · rw [expire, hctl, ackTimeout, if_neg hop]
    exact flightFails_raise (.timeout 0 false) s
  · obtain hctl | hctl | hctl | hctl | hctl := hctl <;> rw [expire, hctl]

/-- Settles O15, from what `raise` writes. -/
theorem raiseRecordsTheErrorAndReturnsToIdle : Obligations.RaiseRecordsTheErrorAndReturnsToIdle :=
  fun e s => ⟨failed_raise e s, flightFrame_raise e s, rfl, rfl, rfl, rfl, rfl, rfl, sameBytes_of rfl rfl⟩

/-- Settles O17, error by error. -/
theorem errorDetailsHaveTheirLayout : Obligations.ErrorDetailsHaveTheirLayout := by
  refine ⟨bit_toNat, fun n hn => ?_, fun b dlc hdlc => ?_, fun expected received type => ?_,
    errorDetail_timeout_toNat, fun pos => ?_, ⟨rfl, rfl⟩, errorDetail_unexpectedServiceId_toNat,
    fun n hn => ⟨?_, ?_, ?_⟩, bit_toNat, errorDetail_didMismatch_toNat, rfl, fun o => ?_, fun layout => ?_⟩
  · rw [errorDetail_payloadTooLarge hn, BitVec.toNat_ofNat]
    omega
  · have hb := b.isLt
    rw [errorDetail_malformedPci b hdlc, BitVec.toNat_ofNat]
    omega
  · have hx := expected.isLt
    have hr := received.isLt
    have ht := type.isLt
    rw [errorDetail_sequenceError, BitVec.toNat_ofNat]
    omega
  · exact BitVec.toNat_setWidth_of_le (by omega)
  · rw [errorDetail_invalidSensorPayload hn, BitVec.toNat_ofNat]
    omega
  · rw [errorDetail_ecuInfoPayloadTooShort hn, BitVec.toNat_ofNat]
    omega
  · rw [errorDetail_dtcPayloadMalformed hn, BitVec.toNat_ofNat]
    omega
  · exact BitVec.toNat_setWidth_of_le (by omega)
  · exact BitVec.toNat_setWidth_of_le (by omega)

end Sys2Proof.Machine
end

section
/-! The proofs of the statements about responses: the check of the service id, the four completions on a payload held in
RXBUF, and that a completion depends on that payload alone. -/

namespace Sys2Proof.Machine

/-! ### Reading a held payload -/

section
variable {s t : State} {p : List Byte}

theorem PayloadHeld.rxBytes_drop (h : PayloadHeld s t p) {off : Nat} (hoff : off ≤ p.length) :
    rxBytes t off (p.length - off) = p.drop off := by
  refine List.ext_getElem (by simp) fun i hi hj => ?_
  have hin : i < p.length - off := by simpa using hi
  rw [← List.getD_eq_getElem _ 0 hi, rxBytes_getD _ _ _ _ hin, h.bytes _ (by omega), List.getElem_drop,
    List.getD_eq_getElem _ 0 (by omega)]

/-! ### The check of the service id (44_uds_session.md R324) -/

theorem PayloadHeld.validateSid_expected {sid : Byte} {rest : List Byte} (h : PayloadHeld s t (sid :: rest))
    (f : State → State) : validateSid sid f t = f t := by
  have hlen : t.rxLen.toNat ≠ 0 := by rw [h.rxLen]; exact Nat.succ_ne_zero _
  have hsid : rxByte t 0 = sid := h.bytes 0 (Nat.succ_pos _)
  rw [validateSid, if_neg hlen, if_neg (not_not.mpr hsid)]

/-- The detail of a wrong SID: the NRC of a negative response of at least 3 bytes (60_exceptions.md R405). -/
theorem PayloadHeld.wrongSid_detail (h : PayloadHeld s t p) (hp : p.length ≠ 0) :
    errorCode (wrongSid t) = 0x08 ∧ errorDetail (wrongSid t) = wrongSidDetail p := by
  have hsid : rxByte t 0 = p.getD 0 0 := h.bytes 0 (by omega)
  unfold wrongSid wrongSidDetail
  rw [hsid, h.rxLen]
  by_cases hneg : p.getD 0 0 = sidNegative ∧ 3 ≤ p.length
  · have hnrc : rxByte t 2 = p.getD 2 0 := h.bytes 2 (by omega)
    rw [if_pos hneg, if_pos hneg, hnrc, hneg.1]
    refine ⟨rfl, BitVec.eq_of_toNat_eq ?_⟩
    have hbyte := (p.getD 2 0).isLt
    rw [errorDetail_unexpectedServiceId_toNat, BitVec.toNat_ofNat]
    simp
    omega
  · rw [if_neg hneg, if_neg hneg]
    refine ⟨rfl, BitVec.eq_of_toNat_eq ?_⟩
    have hbyte := (p.getD 0 0).isLt
    rw [errorDetail_unexpectedServiceId_toNat, BitVec.toNat_ofNat]
    simp
    omega

/-- A response that is empty or has another SID fails the check (44_uds_session.md R324, R339). -/
theorem PayloadHeld.validateSid_wrong (h : PayloadHeld s t p) {expected : Byte}
    (hbad : p.length = 0 ∨ p.getD 0 0 ≠ expected) (f : State → State) :
    ResponseFailure s (validateSid expected f t) p 0x08 (if p.length = 0 then 0x20000 else wrongSidDetail p) := by
  by_cases hempty : p.length = 0
  · rw [validateSid, if_pos (by rw [h.rxLen, hempty]), if_pos hempty]
    exact h.failure (.unexpectedServiceId 0 0 false true)
  · have hsid : rxByte t 0 = p.getD 0 0 := h.bytes 0 (by omega)
    obtain ⟨hcode, hdetail⟩ := h.wrongSid_detail hempty
    rw [validateSid, if_neg (by rw [h.rxLen]; exact hempty), hsid, if_pos (hbad.resolve_left hempty), if_neg hempty,
      ← hcode, ← hdetail]
    exact h.failure (wrongSid t)

end

theorem ackSingle_writeDid {s : State} (h : s.op = opWriteDid) (p : List Byte) :
    ackSingle p s = writeDidAck (rasmTaken (takePayload p s)) := if_pos h

theorem ackSingle_clearDtc {s : State} (h : s.op = opClearDtc) (p : List Byte) :
    ackSingle p s = clearDtcAck (rasmTaken (takePayload p s)) := if_neg (by rw [h]; decide)

/-! ### READ_DID (44_uds_session.md R323, R325) -/

theorem holds_iff (e : DidEntry) (did : Did) : e.holds did = true ↔ e.valid = true ∧ e.did = did := by
  rw [DidEntry.holds, Bool.and_eq_true, beq_iff_eq]

theorem isSensorDid_iff (r : HostRegs) (did : Did) :
    isSensorDid r did = true ↔ r.didSensor0.valid = true ∧ r.didSensor0.did = did ∨
      r.didSensor1.valid = true ∧ r.didSensor1.did = did ∨ r.didSensor2.valid = true ∧ r.didSensor2.did = did ∨
      r.didSensor3.valid = true ∧ r.didSensor3.did = did := by
  simp only [isSensorDid, Bool.or_eq_true, holds_iff, or_assoc]

theorem did_append_toNat (a b : Byte) : (a ++ b : Did).toNat = a.toNat * 2 ^ 8 + b.toNat := by
  have hb := b.isLt
  rw [BitVec.toNat_append, ← Nat.shiftLeft_add_eq_or_of_lt hb, Nat.shiftLeft_eq]

section
variable {s t : State} {sid : Byte} {rest : List Byte} (h : PayloadHeld s t (sid :: rest))
include h

theorem readDidEcho_tooShort (hshort : rest.length < 2) : readDidEcho t = raise (.didMismatch 0 true) t := by
  rw [readDidEcho, if_pos (by rw [h.rxLen, List.length_cons]; omega)]

/-- The DID echoed is in bytes 1 and 2. -/
theorem didEcho_eq (hlong : 2 ≤ rest.length) :
    rxByte t 1 = rest.getD 0 0 ∧ rxByte t 2 = rest.getD 1 0 :=
  ⟨h.bytes 1 (by rw [List.length_cons]; omega), h.bytes 2 (by rw [List.length_cons]; omega)⟩

theorem readDidEcho_mismatch (hlong : 2 ≤ rest.length)
    (hecho : (rest.getD 0 0).toNat * 2 ^ 8 + (rest.getD 1 0).toNat ≠ s.didCur.toNat) :
    readDidEcho t = raise (.didMismatch (rest.getD 0 0 ++ rest.getD 1 0) false) t := by
  obtain ⟨h1, h2⟩ := didEcho_eq h hlong
  have hne : (rest.getD 0 0 ++ rest.getD 1 0 : Did) ≠ t.didCur := by
    rw [h.frame.flight.didCur, Ne, ← BitVec.toNat_inj, did_append_toNat]
    exact hecho
  rw [readDidEcho, if_neg (by rw [h.rxLen, List.length_cons]; omega), h1, h2, if_pos hne]

theorem readDidEcho_registry (hlong : 2 ≤ rest.length)
    (hecho : (rest.getD 0 0).toNat * 2 ^ 8 + (rest.getD 1 0).toNat = s.didCur.toNat) :
    readDidEcho t = registryDispatch s.didCur 3 (rest.drop 2).length t := by
  obtain ⟨h1, h2⟩ := didEcho_eq h hlong
  have heq : (rest.getD 0 0 ++ rest.getD 1 0 : Did) = t.didCur := by
    rw [h.frame.flight.didCur, ← BitVec.toNat_inj, did_append_toNat]
    exact hecho
  have hlen : t.rxLen.toNat - 3 = (rest.drop 2).length := by
    rw [h.rxLen, List.length_cons, List.length_drop]
    omega
  rw [readDidEcho, if_neg (by rw [h.rxLen, List.length_cons]; omega), h1, h2, if_neg (not_not.mpr heq),
    h.frame.flight.didCur, hlen]

/-- The identifier payload in RXBUF[3..). -/
theorem rxBytes_identifierPayload (hlong : 2 ≤ rest.length) : rxBytes t 3 (rest.drop 2).length = rest.drop 2 := by
  have hdrop := h.rxBytes_drop (off := 3) (by rw [List.length_cons]; omega)
  have hlen : (sid :: rest).length - 3 = (rest.drop 2).length := by
    rw [List.length_cons, List.length_drop]
    omega
  rw [hlen] at hdrop
  exact hdrop

/-- ECU info decoded from a held payload into OUTBUF, and nothing else of the buffers. -/
theorem ecuDecode_held (hlong : 2 ≤ rest.length) (hlayout : s.regs.cfg.ecuLayout = 1 ∨ s.regs.cfg.ecuLayout = 2)
    (hsize : ecuSize s.regs.cfg.ecuLayout ≤ (rest.drop 2).length) :
    let texts := ecuTexts s.regs.cfg.ecuLayout (rest.drop 2)
    let u := ecuDecode 3 (rest.drop 2).length t
    ResponseSuccess s u (sid :: rest) 1 (ecuLengths texts) (BitVec.ofNat 32 (textLength texts 4))
        (s.regs.cfg.ecuLayout.setWidth 32) 0 ∧
      outbufHolds u texts ∧ ∀ a, outEnd ≤ a → byteAt u a = byteAt s a := by
  intro texts u
  have hregs : t.regs = s.regs := h.frame.flight.regs
  rw [← hregs] at hlayout hsize
  have hinfo := ecuDecode_info hlayout 3 hsize
  have hheld := outbufHolds_putEcuFields t 3 hsize
  have houtside := sameBytesOutside_putEcuFields t 3
  obtain ⟨m, hm⟩ := putEcuFields_listed t 3
  rw [rxBytes_identifierPayload h hlong, hregs] at hinfo hheld
  dsimp only at hinfo
  rw [hm] at hinfo hheld houtside
  have hu : u = _ := hinfo
  rw [hu]
  refine ⟨h.success .ecuInfo _ _ _ _ fun a ha => houtside a (.inl ha), hheld, fun a ha => ?_⟩
  have hout : outBase ≤ a := le_trans (by decide) ha
  exact (houtside a (.inr ha)).trans (h.outbuf a hout)

end

/-! ### DTC lists (45_payload_codecs.md R369) -/

theorem dtcMask_eq (d : List Byte) :
    dtcMask d = BitVec.ofNat 32 (if d.length = 0 then 0 else (d.getD 0 0).toNat + 2 ^ 8) := by
  cases d with
  | nil => rfl
  | cons mask rest =>
    have hmask := mask.isLt
    apply BitVec.eq_of_toNat_eq
    rw [dtcMask, or_shiftLeft_toNat] <;> simp [bit] <;> omega

/-- A DTC list as the words its data stand for. -/
theorem dtcList_eq (off n : Nat) (s : State) :
    dtcList off n s = finish .dtcList (dtcWords (rxBytes s off n)).1 (BitVec.ofNat 32 (off + 1))
      (dtcWords (rxBytes s off n)).2 0 s := by
  have hcount : (dtcRecords (rxBytes s off n)).length =
      if (rxBytes s off n).length ≤ 1 then 0 else ((rxBytes s off n).length - 1) / 4 := by
    rw [dtcRecords_length]
    split <;> omega
  unfold dtcList dtcWords
  dsimp only
  rw [hcount, dtcMask_eq]

/-- The records of data that stand in RXBUF, the mask right before RXBUF[first]. -/
theorem recordsAt_of_bytes {t : State} {first : Nat} {d : List Byte}
    (h : ∀ j, j + 1 < d.length → rxByte t (first + j) = d.getD (j + 1) 0) : recordsAt t first (dtcRecords d) := by
  intro i r hr
  obtain ⟨hi, -⟩ := List.getElem?_eq_some_iff.mp hr
  rw [dtcRecords_length] at hi
  have hbyte : ∀ j, j < 4 → (d.drop 1).getD (4 * i + j) 0 = rxByte t (first + 4 * i + j) := fun j hj => by
    rw [Nat.add_assoc first, h _ (by omega), List.getD_eq_getElem?_getD, List.getElem?_drop, Nat.add_comm 1,
      ← List.getD_eq_getElem?_getD]
  have hrecord := dtcGroups_getElem? (d.drop 1) i r hr
  have h0 := hbyte 0 (by omega)
  rw [Nat.add_zero, Nat.add_zero] at h0
  rw [h0, hbyte 1 (by omega), hbyte 2 (by omega), hbyte 3 (by omega)] at hrecord
  rw [hrecord]
  exact ⟨be24_toNat _ _ _, rfl⟩

/-! ### A completion depends on the held payload alone -/

/-- Two states that differ in nothing a completion reads: not in the bytes of RXBUF below RX_LEN, nor in any byte
outside RXBUF. -/
structure Alike (t u : State) : Prop where
  regs : t.regs = u.regs
  didCur : t.didCur = u.didCur
  status : t.status = u.status
  res : t.res = u.res
  rxLen : t.rxLen = u.rxLen
  phase : t.rasm.phase = u.rasm.phase
  ctl : t.ctl = u.ctl
  timer : t.timer = u.timer
  payload : ∀ k, k < t.rxLen.toNat → rxByte t k = rxByte u k
  outside : ∀ a, a < rxBase ∨ outBase ≤ a → byteAt t a = byteAt u a

/-- One payload, held after two ways of receiving it. -/
theorem alike_of_held {s t u : State} {p : List Byte} (ht : PayloadHeld s t p) (hu : PayloadHeld s u p) :
    Alike t u where
  regs := ht.frame.flight.regs.trans hu.frame.flight.regs.symm
  didCur := ht.frame.flight.didCur.trans hu.frame.flight.didCur.symm
  status := ht.status.trans hu.status.symm
  res := ht.res.trans hu.res.symm
  rxLen := BitVec.eq_of_toNat_eq (ht.rxLen.trans hu.rxLen.symm)
  phase := ht.phase.trans hu.phase.symm
  ctl := ht.ctl.trans hu.ctl.symm
  timer := ht.timer.trans hu.timer.symm
  payload k hk := by
    rw [ht.rxLen] at hk
    rw [ht.bytes k hk, hu.bytes k hk]
  outside a ha := by
    obtain ha | ha := ha
    · rw [ht.frame.txbuf a ha, hu.frame.txbuf a ha]
    · rw [ht.outbuf a ha, hu.outbuf a ha]

section
variable {t u : State} (h : Alike t u)
include h

theorem alike_raise (e : CmdError) : Alike (raise e t) (raise e u) where
  regs := h.regs
  didCur := h.didCur
  status := by rw [raise_status, raise_status, h.status]
  res := h.res
  rxLen := h.rxLen
  phase := h.phase
  ctl := rfl
  timer := by rw [raise_timer, raise_timer, h.timer]
  payload := h.payload
  outside := h.outside

theorem alike_finish (k : ResKind) (r0 r1 r2 r3 : Word32) :
    Alike (finish k r0 r1 r2 r3 t) (finish k r0 r1 r2 r3 u) where
  regs := h.regs
  didCur := h.didCur
  status := by rw [finish_status, finish_status, h.status]
  res := rfl
  rxLen := h.rxLen
  phase := h.phase
  ctl := rfl
  timer := by rw [finish_timer, finish_timer, h.timer]
  payload := h.payload
  outside := h.outside

/-- A change of OUTBUF that both states make alike. -/
theorem alike_withMem {m m' : List Host.Cell}
    (hm : ∀ a, byteAt t a = byteAt u a → byteAt { t with mem := m } a = byteAt { u with mem := m' } a) :
    Alike { t with mem := m } { u with mem := m' } where
  regs := h.regs
  didCur := h.didCur
  status := h.status
  res := h.res
  rxLen := h.rxLen
  phase := h.phase
  ctl := h.ctl
  timer := h.timer
  payload k hk := hm _ (h.payload k hk)
  outside a ha := hm a (h.outside a ha)

theorem alike_storeOut (k : Nat) (bs : List Byte) : Alike (storeOut t k bs) (storeOut u k bs) :=
  alike_withMem h fun a ha => by
    change byteAt (storeOut t k bs) a = byteAt (storeOut u k bs) a
    rw [byteAt_storeOut, byteAt_storeOut, ha]

theorem alike_zeroOut : Alike (zeroOut t) (zeroOut u) :=
  alike_withMem h fun a ha => by
    change byteAt (zeroOut t) a = byteAt (zeroOut u) a
    rw [byteAt_zeroOut, byteAt_zeroOut, ha]

theorem rxBytes_alike {off n : Nat} (hn : off + n ≤ t.rxLen.toNat) : rxBytes t off n = rxBytes u off n :=
  List.map_congr_left fun i hi => h.payload _ (by rw [List.mem_range] at hi; omega)

theorem ecuField_alike {off n : Nat} (hn : off + n ≤ t.rxLen.toNat) (hsize : ecuSize t.regs.cfg.ecuLayout ≤ n)
    {slot : Nat} (hslot : slot < 5) : ecuField t off slot = ecuField u off slot := by
  have hwithin := ecuField_within t.regs.cfg.ecuLayout hslot
  rw [ecuField, ecuField, rxBytes_alike h (by omega), h.regs]

theorem alike_putEcuFields {off n : Nat} (hn : off + n ≤ t.rxLen.toNat)
    (hsize : ecuSize t.regs.cfg.ecuLayout ≤ n) : Alike (putEcuFields t off) (putEcuFields u off) := by
  have hfield : ∀ slot, slot < 5 → ecuField t off slot = ecuField u off slot := fun _ => ecuField_alike h hn hsize
  rw [putEcuFields, putEcuFields, hfield 0 (by omega), hfield 1 (by omega), hfield 2 (by omega), hfield 3 (by omega),
    hfield 4 (by omega)]
  exact alike_storeOut (alike_storeOut (alike_storeOut (alike_storeOut (alike_storeOut (alike_zeroOut h) _ _) _ _)
    _ _) _ _) _ _

theorem alike_ecuDecode {off n : Nat} (hn : off + n ≤ t.rxLen.toNat) :
    Alike (ecuDecode off n t) (ecuDecode off n u) := by
  unfold ecuDecode
  dsimp only
  rw [← h.regs]
  split
  · exact alike_raise h _
  · split
    · exact alike_raise h _
    · next hsize =>
      have hfield : ∀ slot, slot < 5 → ecuLen t off slot = ecuLen u off slot := fun slot hslot => by
        rw [ecuLen, ecuLen, ecuField_alike h hn (Nat.not_lt.mp hsize) hslot]
      rw [hfield 0 (by omega), hfield 1 (by omega), hfield 2 (by omega), hfield 3 (by omega), hfield 4 (by omega)]
      exact alike_finish (alike_putEcuFields h hn (Nat.not_lt.mp hsize)) _ _ _ _ _

theorem alike_sensorDecode {off n : Nat} (hn : off + n ≤ t.rxLen.toNat) :
    Alike (sensorDecode off n t) (sensorDecode off n u) := by
  obtain hshort | hlong := Nat.lt_or_ge n 2
  · rw [sensorDecode_tooShort t off hshort, sensorDecode_tooShort u off hshort]
    exact alike_raise h _
  · rw [sensorDecode_sample t off hlong, sensorDecode_sample u off hlong, rxBytes_alike h hn]
    exact alike_finish h _ _ _ _ _

theorem alike_registryDispatch (did : Did) {off n : Nat} (hn : off + n ≤ t.rxLen.toNat) :
    Alike (registryDispatch did off n t) (registryDispatch did off n u) := by
  unfold registryDispatch
  rw [← h.regs]
  split
  · exact alike_ecuDecode h hn
  · split
    · exact alike_sensorDecode h hn
    · exact alike_finish h _ _ _ _ _

theorem alike_dtcList {off n : Nat} (hn : off + n ≤ t.rxLen.toNat) : Alike (dtcList off n t) (dtcList off n u) := by
  rw [dtcList_eq, dtcList_eq, rxBytes_alike h hn]
  exact alike_finish h _ _ _ _ _

theorem wrongSid_alike (hlen : t.rxLen.toNat ≠ 0) : wrongSid t = wrongSid u := by
  have hsid := h.payload 0 (by omega)
  unfold wrongSid
  rw [← h.rxLen, ← hsid]
  split
  · next hneg => rw [h.payload 2 (by omega)]
  · rfl

theorem alike_validateSid (expected : Byte) {f : State → State} (hf : Alike (f t) (f u)) :
    Alike (validateSid expected f t) (validateSid expected f u) := by
  unfold validateSid
  rw [← h.rxLen]
  split
  · exact alike_raise h _
  · next hlen =>
    rw [← h.payload 0 (by omega), ← wrongSid_alike h hlen]
    split
    · exact alike_raise h _
    · exact hf

theorem alike_readDidComplete : Alike (readDidComplete t) (readDidComplete u) := by
  refine alike_validateSid h _ ?_
  unfold readDidEcho
  rw [← h.rxLen]
  split
  · exact alike_raise h _
  · next hlen =>
    rw [← h.payload 1 (by omega), ← h.payload 2 (by omega), ← h.didCur]
    split
    · exact alike_raise h _
    · exact alike_registryDispatch h _ (by omega)

theorem alike_readDtcComplete : Alike (readDtcComplete t) (readDtcComplete u) := by
  refine alike_validateSid h _ ?_
  rw [← h.rxLen]
  split
  · exact alike_raise h _
  · exact alike_dtcList h (by omega)

end

/-- A decoded response has at most 4095 bytes (41_frame_codec.md R128). -/
theorem length_le_of_decodeResponse {p : List Byte} {i : Instr} (h : decodeResponse p = .ok i) : p.length ≤ 4095 := by
  cases p with
  | nil => exact Nat.zero_le _
  | cons sid rest =>
    rw [decodeResponse] at h
    split at h
    · exact nomatch h
    · rw [List.length_cons]
      omega

theorem EndsCommand.rxLen_eq {s t : State} (h : EndsCommand s t) : t.rxLen = s.rxLen := by cases h <;> rfl

/-- The detail of a negative response: its NRC with the valid bit, where there is one (60_exceptions.md R405). -/
theorem wrongSidDetail_negative (rest : List Byte) : wrongSidDetail (0x7F :: rest) =
    BitVec.ofNat 32 (if 2 ≤ rest.length then 0x1007F + (rest.getD 1 0).toNat * 2 ^ 8 else 0x7F) := by
  rw [wrongSidDetail, List.getD_cons_zero, List.getD_cons_succ, List.length_cons]
  by_cases hnrc : 2 ≤ rest.length
  · rw [if_pos ⟨rfl, by omega⟩, if_pos hnrc]
    refine congrArg (BitVec.ofNat 32) ?_
    omega
  · rw [if_neg fun hboth => hnrc (by omega), if_neg hnrc]
    rfl

theorem ackExact_iff {s t : State} {sid : Byte} {rest : List Byte} (h : PayloadHeld s t (sid :: rest)) :
    (t.rxLen.toNat = 3 ∧ rxByte t 1 = hi8 t.didCur ∧ rxByte t 2 = lo8 t.didCur) ↔
      rest = [s.didCur.extractLsb' 8 8, s.didCur.extractLsb' 0 8] := by
  rw [h.rxLen, h.frame.flight.didCur]
  constructor
  · intro ⟨hlen, hhi, hlo⟩
    rw [h.bytes 1 (by omega)] at hhi
    rw [h.bytes 2 (by omega)] at hlo
    obtain ⟨a, b, rfl⟩ := List.length_eq_two.mp (Nat.succ.inj hlen)
    exact congrArg₂ (fun x y => [x, y]) hhi hlo
  · rintro rfl
    have hlen : ∀ k, k < 3 → k < [sid, s.didCur.extractLsb' 8 8, s.didCur.extractLsb' 0 8].length := fun _ => id
    exact ⟨rfl, h.bytes 1 (hlen 1 (by decide)), h.bytes 2 (hlen 2 (by decide))⟩

/-! ### The statements -/

/-- Settles O43: the frames of the payload and the row leave it held alike, and the completion makes no difference. -/
theorem reassembledResponsesRunTheirResponseRows : Obligations.ReassembledResponsesRunTheirResponseRows := by
  intro s p i hctl hop hphase hdec
  have hp : p.length ≤ 4095 := length_le_of_decodeResponse hdec
  have hreassemble : isReassembleOp s.op = true := by rcases hop with hop | hop <;> rw [hop] <;> rfl
  obtain ⟨x, hdeliver, hheld, -⟩ := deliver_framesOf hctl hreassemble hphase hp
  have hrow : PayloadHeld s (rasmTaken (takePayload p s)) p := payloadHeld_takePayload hp s s.rasm
  have halike := alike_of_held hheld hrow
  have hxop : x.op = s.op := hheld.frame.flight.op
  have hends : ∃ t u, rasmComplete x = .next t ∧ rasmComplete (takePayload p s) = .next u ∧ Alike t u ∧
      t.rxLen.toNat = p.length := by
    obtain hop | hop := hop
    · exact ⟨_, _, rasmComplete_readDid (hxop.trans hop), rasmComplete_readDid hop, alike_readDidComplete halike,
        (congrArg BitVec.toNat (endsCommand_readDidComplete _).rxLen_eq).trans hheld.rxLen⟩
    · exact ⟨_, _, rasmComplete_readDtc (hxop.trans hop), rasmComplete_readDtc hop, alike_readDtcComplete halike,
        (congrArg BitVec.toNat (endsCommand_readDtcComplete _).rxLen_eq).trans hheld.rxLen⟩
  obtain ⟨t, u, ht, hu, h, hlen⟩ := hends
  refine ⟨t, u, hdeliver.trans ht, ?_, h.status, h.res, h.rxLen, h.phase, h.ctl, h.timer, fun k hk => ?_, h.outside⟩
  · rw [exec_of_decodeResponse hdec, responseArrived_respWait hctl, hu]
  · exact h.payload k (by omega)

/-- Settles O48: reassembled or in a Single Frame, the payload is held and the check of its SID fails. -/
theorem wrongServiceIdIsRejectedByEveryOperation : Obligations.WrongServiceIdIsRejectedByEveryOperation := by
  intro s p padding hp expected detail hbad
  refine ⟨fun hctl hop hphase => ?_, fun hctl hop _ => ⟨_, exec_pciSf_ackWait hctl p padding, ?_⟩⟩
  · have hreassemble : isReassembleOp s.op = true := by rcases hop with hop | hop <;> rw [hop] <;> rfl
    obtain ⟨x, hdeliver, hheld, -⟩ := deliver_framesOf hctl hreassemble hphase hp
    have hxop : x.op = s.op := hheld.frame.flight.op
    obtain hop | hop := hop
    · have hexpected : expected = positiveSid sidReadDid := by simp only [expected, hop]; rfl
      rw [rasmComplete_readDid (hxop.trans hop)] at hdeliver
      exact ⟨_, hdeliver, hheld.validateSid_wrong (hexpected ▸ hbad) _⟩
    · have hexpected : expected = positiveSid sidReadDtc := by simp only [expected, hop]; rfl
      rw [rasmComplete_readDtc (hxop.trans hop)] at hdeliver
      exact ⟨_, hdeliver, hheld.validateSid_wrong (hexpected ▸ hbad) _⟩
  · have hheld : PayloadHeld s (rasmTaken (takePayload p s)) p := payloadHeld_takePayload hp s s.rasm
    obtain hop | hop := hop
    · have hexpected : expected = positiveSid sidWriteDid := by simp only [expected, hop]; rfl
      rw [ackSingle_writeDid hop]
      exact hheld.validateSid_wrong (hexpected ▸ hbad) _
    · have hexpected : expected = positiveSid sidClearDtc := by simp only [expected, hop]; rfl
      rw [ackSingle_clearDtc hop]
      exact hheld.validateSid_wrong (hexpected ▸ hbad) _

/-- Settles O49: 7F is the positive SID of no operation, so each of the four checks fails. -/
theorem negativeResponseFailsTheOperation : Obligations.NegativeResponseFailsTheOperation := by
  intro s rest hlen hwindow
  let p : List Byte := 0x7F :: rest
  have hp : p.length ≤ 4095 := by rw [List.length_cons]; omega
  have hheld : PayloadHeld s (rasmTaken (takePayload p s)) p := payloadHeld_takePayload hp s s.rasm
  have hdetail : (if p.length = 0 then 0x20000 else wrongSidDetail p) =
      BitVec.ofNat 32 (if 2 ≤ rest.length then 0x1007F + (rest.getD 1 0).toNat * 2 ^ 8 else 0x7F) :=
    (if_neg (Nat.succ_ne_zero _)).trans (wrongSidDetail_negative rest)
  have hfails : ∀ expected f, expected ≠ (0x7F : Byte) → ResponseFailure s
      (validateSid expected f (rasmTaken (takePayload p s))) p 0x08
      (BitVec.ofNat 32 (if 2 ≤ rest.length then 0x1007F + (rest.getD 1 0).toNat * 2 ^ 8 else 0x7F)) :=
    fun expected f hne => hdetail ▸ hheld.validateSid_wrong (.inr hne.symm) f
  have hrow : exec (.rspNegative rest) s = responseArrived p s := rfl
  rw [hrow]
  obtain ⟨hctl, hop | hop⟩ | ⟨hctl, hop | hop⟩ := hwindow
  · rw [responseArrived_respWait hctl, rasmComplete_readDid (s := takePayload p s) hop]
    exact ⟨_, rfl, (wholeResponse_of_endsCommand (b := s.rasm.mf) (endsCommand_readDidComplete _)).1,
      hfails _ _ (by decide)⟩
  · rw [responseArrived_respWait hctl, rasmComplete_readDtc (s := takePayload p s) hop]
    exact ⟨_, rfl, (wholeResponse_of_endsCommand (b := s.rasm.mf) (endsCommand_readDtcComplete _)).1,
      hfails _ _ (by decide)⟩
  · rw [responseArrived_ackWait hctl, ackSingle_writeDid hop]
    exact ⟨_, rfl, (wholeResponse_of_endsCommand (b := s.rasm.mf) (endsCommand_writeDidAck _)).1,
      hfails _ _ (by decide)⟩
  · rw [responseArrived_ackWait hctl, ackSingle_clearDtc hop]
    exact ⟨_, rfl, (wholeResponse_of_endsCommand (b := s.rasm.mf) (endsCommand_clearDtcAck _)).1,
      hfails _ _ (by decide)⟩

/-- Settles O51: without an echo the failure, else the list that starts behind it. -/
theorem readDtcReportsTheList : Obligations.ReadDtcReportsTheList := by
  intro s rest hctl hop hlen p w
  have hp : p.length ≤ 4095 := by rw [List.length_cons]; omega
  let u := rasmTaken (takePayload p s)
  have hheld : PayloadHeld s u p := payloadHeld_takePayload hp s s.rasm
  have hends : EndsCommand u (readDtcComplete u) := endsCommand_readDtcComplete u
  have hrow : exec (.rspReadDtc rest) s = responseArrived p s := rfl
  have hrun : readDtcComplete u = _ := hheld.validateSid_expected _
  rw [hrow, responseArrived_respWait hctl, rasmComplete_readDtc (s := takePayload p s) hop]
  refine ⟨_, rfl, (wholeResponse_of_endsCommand (b := s.rasm.mf) hends).1, fun hempty => ?_, fun hne => ?_⟩
  · have hone : u.rxLen.toNat = 1 := by rw [hheld.rxLen, List.length_cons, hempty]; rfl
    rw [hrun, if_pos (by omega), hone]
    exact hheld.failure (.dtcPayloadMalformed 1)
  · have hpos : 0 < rest.length := List.length_pos_iff.mpr hne
    have hlong : ¬ u.rxLen.toNat < 2 := by rw [hheld.rxLen, List.length_cons]; omega
    have hdata : rxBytes u 2 (u.rxLen.toNat - 2) = rest.drop 1 := by
      rw [hheld.rxLen]
      exact hheld.rxBytes_drop (off := 2) (by rw [List.length_cons]; omega)
    have hlist : readDtcComplete u = finish .dtcList w.1 3 w.2 0 u := by
      rw [hrun, if_neg hlong, dtcList_eq, hdata]
      rfl
    obtain ⟨hsuccess, houtbuf⟩ := hheld.successOnly .dtcList w.1 3 w.2 0
    rw [hlist]
    refine ⟨hsuccess, houtbuf, by rw [dtcRecords_length, List.length_drop]; omega, recordsAt_of_bytes fun j hj => ?_⟩
    rw [List.length_drop] at hj
    have hbyte : rxByte u (3 + j) = p.getD (3 + j) 0 := hheld.bytes _ (by rw [List.length_cons]; omega)
    have hindex : p.getD (3 + j) 0 = (rest.drop 1).getD (j + 1) 0 := by
      have hsum : 3 + j = (1 + (j + 1)) + 1 := by omega
      rw [hsum, List.getD_cons_succ, List.getD_eq_getElem?_getD, ← List.getElem?_drop, ← List.getD_eq_getElem?_getD]
    exact hbyte.trans hindex

/-- Settles O52: the acknowledgement of WRITE_DID is compared byte by byte, that of CLEAR_DTC by its SID. -/
theorem acknowledgementsAreChecked : Obligations.AcknowledgementsAreChecked := by
  intro s rest hctl hlen
  refine ⟨fun hop => ?_, fun hop => ?_⟩
  · let p : List Byte := 0x6E :: rest
    have hp : p.length ≤ 4095 := by rw [List.length_cons]; omega
    let u := rasmTaken (takePayload p s)
    have hheld : PayloadHeld s u p := payloadHeld_takePayload hp s s.rasm
    have hrow : exec (.rspWriteDid rest) s = responseArrived p s := rfl
    have hrun : writeDidAck u = _ := hheld.validateSid_expected _
    have hexact : (u.rxLen.toNat = 3 ∧ rxByte u 1 = hi8 u.didCur ∧ rxByte u 2 = lo8 u.didCur) ↔
        rest = [s.didCur.extractLsb' 8 8, s.didCur.extractLsb' 0 8] := ackExact_iff hheld
    rw [hrow, responseArrived_ackWait hctl, ackSingle_writeDid hop]
    refine ⟨_, rfl, (wholeResponse_of_endsCommand (b := s.rasm.mf) (endsCommand_writeDidAck _)).1, fun hack => ?_,
      fun hother => ?_⟩
    · have hfinish : writeDidAck u = finish .ack 0x6E (s.didCur.setWidth 32) 0 0 u := by
        rw [hrun, if_pos (hexact.mpr hack)]
        rfl
      rw [hfinish]
      exact hheld.successOnly .ack _ _ _ _
    · have hraise : writeDidAck u = raise (.writeAckNotObserved false) u := by
        rw [hrun, if_neg (hexact.not.mpr hother)]
      rw [hraise]
      exact hheld.failure (.writeAckNotObserved false)
  · let p : List Byte := 0x54 :: rest
    have hp : p.length ≤ 4095 := by rw [List.length_cons]; omega
    have hheld : PayloadHeld s (rasmTaken (takePayload p s)) p := payloadHeld_takePayload hp s s.rasm
    have hrow : exec (.rspClearDtc rest) s = responseArrived p s := rfl
    have hrun : clearDtcAck (rasmTaken (takePayload p s)) = _ := hheld.validateSid_expected _
    rw [hrow, responseArrived_ackWait hctl, ackSingle_clearDtc hop]
    refine ⟨_, rfl, (wholeResponse_of_endsCommand (b := s.rasm.mf) (endsCommand_clearDtcAck _)).1, ?_⟩
    rw [hrun]
    exact hheld.successOnly .ack _ _ _ _

/-- Settles O30: the range check, then the list of the records in the range. -/
theorem decDtcListCountsTheRecords : Obligations.DecDtcListCountsTheRecords := by
  intro s hidle off len
  refine ⟨_, rfl, rxRange_past hidle, fun hrange => ?_⟩
  intro d w
  have hbytes : rxBytes (accept opDecDtcList s) off len = d := rxBytes_congr rfl rfl off len
  rw [rxRange_within (rule := dtcList) hidle hrange, dtcList_eq, hbytes]
  obtain ⟨hsuccess, hfout, hsame⟩ :=
    pureSuccess_finish_only opDecDtcList s .dtcList w.1 (BitVec.ofNat 32 (off + 1)) w.2 0
  refine ⟨hsuccess, hfout, hsame, by rw [dtcRecords_length, rxBytes_length], recordsAt_of_bytes fun j hj => ?_⟩
  rw [rxBytes_length] at hj
  rw [rxBytes_getD _ _ _ _ hj, Nat.add_right_comm, Nat.add_assoc]
  exact hsame _

/-- Settles O50: the echo, then the entry of the registry, then the decoder's own cases. -/
theorem readDidDecodesItsResponse : Obligations.ReadDidDecodesItsResponse := by
  intro s rest hctl hop hlen p echo payload registered ecu sensor layout size texts echoed
  have hp : p.length ≤ 4095 := by rw [List.length_cons]; omega
  let u := rasmTaken (takePayload p s)
  have hheld : PayloadHeld s u p := payloadHeld_takePayload hp s s.rasm
  have hexec : exec (.rspReadDid rest) s = .next (readDidEcho u) := by
    have hrow : exec (.rspReadDid rest) s = responseArrived p s := rfl
    rw [hrow, responseArrived_respWait hctl, rasmComplete_readDid (s := takePayload p s) hop]
    exact congrArg Host.Outcome.next (hheld.validateSid_expected readDidEcho)
  have hends : EndsCommand u (readDidEcho u) := by
    rw [← hheld.validateSid_expected readDidEcho]
    exact endsCommand_readDidComplete u
  have hecuHolds : u.regs.didEcu.holds s.didCur = true ↔ ecu := holds_iff s.regs.didEcu s.didCur
  have hsensorHolds : isSensorDid u.regs s.didCur = true ↔ sensor := isSensorDid_iff s.regs s.didCur
  have hpayload : payload.length < 2 ^ 16 := by rw [List.length_drop]; omega
  have hecuRun : echoed → ecu → readDidEcho u = ecuDecode 3 payload.length u := fun he hecu => by
    rw [readDidEcho_registry hheld he.1 he.2, registryDispatch, if_pos (hecuHolds.mpr hecu)]
  have hsensorRun : echoed → ¬ ecu → sensor → readDidEcho u = sensorDecode 3 payload.length u := fun he hecu hsens => by
    rw [readDidEcho_registry hheld he.1 he.2, registryDispatch, if_neg (hecuHolds.not.mpr hecu),
      if_pos (hsensorHolds.mpr hsens)]
  refine ⟨_, hexec, (wholeResponse_of_endsCommand (b := s.rasm.mf) hends).1, fun hshort => ?_, fun hlong hne => ?_,
    fun he hecu hnone => ?_, fun he hecu hsel hshort => ?_, fun he hecu hsel hsize => ?_,
    fun he hecu hsens hshort => ?_, fun he hecu hsens hlong => ?_, fun he hecu hsens => ?_⟩
  · rw [readDidEcho_tooShort hheld hshort]
    exact hheld.failure (.didMismatch 0 true)
  · have hdetail : errorDetail (.didMismatch (rest.getD 0 0 ++ rest.getD 1 0) false) = BitVec.ofNat 32 echo := by
      have h0 := (rest.getD 0 0).isLt
      have h1 := (rest.getD 1 0).isLt
      apply BitVec.eq_of_toNat_eq
      rw [errorDetail_didMismatch_toNat, did_append_toNat, BitVec.toNat_ofNat, Bool.toNat_false]
      omega
    rw [readDidEcho_mismatch hheld hlong hne, ← hdetail]
    exact hheld.failure (.didMismatch _ false)
  · rw [hecuRun he hecu, ecuDecode_notSelected u 3 payload.length hnone]
    exact hheld.failure (.ecuLayoutNotSelected layout)
  · rw [hecuRun he hecu, ecuDecode_tooShort (s := u) hsel 3 hshort, ← errorDetail_ecuInfoPayloadTooShort hpayload]
    exact hheld.failure (.ecuInfoPayloadTooShort payload.length)
  · rw [hecuRun he hecu]
    exact ecuDecode_held hheld he.1 hsel hsize
  · rw [hsensorRun he hecu hsens, sensorDecode_tooShort u 3 hshort, ← errorDetail_invalidSensorPayload hpayload]
    exact hheld.failure (.invalidSensorPayload payload.length)
  · rw [hsensorRun he hecu hsens, sensorDecode_sample u 3 hlong, rxBytes_identifierPayload hheld he.1]
    exact hheld.successOnly .sensorSample _ _ _ _
  · rw [readDidEcho_registry hheld he.1 he.2, registryDispatch, if_neg (hecuHolds.not.mpr hecu),
      if_neg (hsensorHolds.not.mpr hsens)]
    exact hheld.successOnly .raw _ _ _ _

end Sys2Proof.Machine
end

section
/-! The proofs of the statements about the events and the host port: what a step does with each input, and the words the
address map holds. -/

namespace Sys2Proof.Machine

/-! ### One input (40_command_interface.md R170) -/

theorem step_of_inputs {s : State} {i : Input} {rest : List Input} (h : s.env.inputs = i :: rest) :
    step s = handleInput i { s with env := { s.env with inputs := rest } } := by
  simp only [step, nextInput, h]

theorem hostAccessOk_iff (addr : BitVec 16) (width : Nat) :
    hostAccessOk addr width = true ↔ width = 4 ∧ addr.toNat % 4 = 0 ∧ addr.toNat < 0x4000 := by
  simp only [hostAccessOk, Bool.and_eq_true, beq_iff_eq, decide_eq_true_eq, hostEnd, and_assoc]

section
variable {addr : BitVec 16} {width : Nat}

theorem hostRead_carried (h : hostAccessOk addr width = true) (s : State) :
    hostRead addr width s = .next { s with env := { s.env with hostRdata := memRead s addr.toNat } } := if_pos h

theorem hostRead_refused (h : ¬ hostAccessOk addr width = true) (s : State) :
    hostRead addr width s = .refused .hostAccessOutsideContract := if_neg h

theorem hostWrite_refused (h : ¬ hostAccessOk addr width = true) (v : Word32) (s : State) :
    hostWrite addr width v s = .refused .hostAccessOutsideContract := if_neg h

theorem hostWrite_store (h : hostAccessOk addr width = true) (hcmd : addr.toNat ≠ 0) (v : Word32) (s : State) :
    hostWrite addr width v s = settle (.next (hostStore addr.toNat v s)) := by
  rw [hostWrite, if_pos h, if_neg hcmd]

end

theorem commandWritten_ok {v : Word32} {i : Instr} (h : decodeCommand v = .ok i) (s : State) :
    commandWritten v s = exec i s := by
  rw [commandWritten, h]

theorem rxReady_iff (c : Ctl) : rxReady c = true ↔ c = .idle ∨ c = .fcWait ∨ c = .respWait ∨ c = .ackWait := by
  cases c <;> decide

theorem rxEvent_taken {s : State} {f : Frame} {fs : List Frame} (hready : rxReady s.ctl = true)
    (hfifo : s.env.rxFifo = f :: fs) :
    rxEvent s = settle (frameReceived f { s with env := { s.env with rxFifo := fs } }) := by
  rw [rxEvent, if_pos hready, hfifo]

theorem rxEvent_notEnabled {s : State} (h : s.env.rxFifo = [] ∨ rxReady s.ctl = false) : rxEvent s = .next s := by
  obtain hempty | hclosed := h
  · rw [rxEvent, hempty, ite_self]
  · rw [rxEvent, hclosed, if_neg Bool.false_ne_true]

/-! ### Time (60_exceptions.md R420, R421) -/

theorem timerRuns_iff (c : Ctl) :
    timerRuns c = true ↔ c = .fcWait ∨ c = .stWait ∨ c = .respWait ∨ c = .rxFc ∨ c = .ackWait := by
  cases c <;> decide

theorem tickEvent_pos {dt : Nat} (h : 1 ≤ dt) (s : State) :
    tickEvent dt s = .next (timeoutEval (advanceTimer dt s)) := if_neg (Nat.one_le_iff_ne_zero.mp h)

/-- No wait is open in IDLE, so none expires. -/
theorem timeoutEval_idle {s : State} (h : s.ctl = .idle) : timeoutEval s = s := by
  have hexpire : expire s = s := by rw [expire, h]
  rw [timeoutEval, hexpire, ite_self]

/-! ### The words of the registers (20_memory.md R90) -/

theorem busy_toNat (s : State) : (busy s).toNat = if s.ctl = .idle then 0 else 1 := by
  by_cases h : s.ctl = .idle <;> simp [busy, h]

/-- A field put above the bits of a word: `or_shiftLeft_toNat` with both parts as numbers. -/
theorem or_field_toNat {lo hi : Word32} {x y i : Nat} (hlo : lo.toNat = x) (hhi : hi.toNat = y) (hx : x < 2 ^ i)
    (hy : y * 2 ^ i < 2 ^ 32) : (lo ||| hi <<< i).toNat = x + y * 2 ^ i := by
  subst hlo hhi
  exact or_shiftLeft_toNat hx hy

theorem field_toNat {n : Nat} (x : BitVec n) (h : n ≤ 32) : (x.setWidth 32).toNat = x.toNat :=
  BitVec.toNat_setWidth_of_le h

theorem statusWord_toNat (s : State) : (statusWord s).toNat =
    (busy s).toNat + s.status.done.toNat * 2 + s.status.err.toNat * 4 + s.status.cmdRejected.toNat * 8
      + s.status.errcode.toNat * 2 ^ 8 + (ctlCode s.ctl).toNat * 2 ^ 16 + (rasmCode s.rasm.phase).toNat * 2 ^ 20 := by
  have hbusy := (busy s).toNat_lt
  have hdone := s.status.done.toNat_lt
  have herr := s.status.err.toNat_lt
  have hrejected := s.status.cmdRejected.toNat_lt
  have hcode := s.status.errcode.isLt
  have hctl := (ctlCode s.ctl).isLt
  have hrasm := (rasmCode s.rasm.phase).isLt
  have hbit1 := or_field_toNat (i := 1) (bit_toNat (busy s)) (bit_toNat s.status.done) (by omega) (by omega)
  have hbit2 := or_field_toNat (i := 2) hbit1 (bit_toNat s.status.err) (by omega) (by omega)
  have hbit3 := or_field_toNat (i := 3) hbit2 (bit_toNat s.status.cmdRejected) (by omega) (by omega)
  have hbit8 := or_field_toNat (i := 8) hbit3 (field_toNat s.status.errcode (by decide)) (by omega) (by omega)
  have hbit16 := or_field_toNat (i := 16) hbit8 (field_toNat (ctlCode s.ctl) (by decide)) (by omega) (by omega)
  exact or_field_toNat (i := 20) hbit16 (field_toNat (rasmCode s.rasm.phase) (by decide)) (by omega) (by omega)

theorem cfgWord_toNat (c : Cfg) : (cfgWord c).toNat =
    c.ecuLayout.toNat + c.padEn.toNat * 2 ^ 2 + c.rxFcEn.toNat * 2 ^ 3 + c.padByte.toNat * 2 ^ 8 := by
  have hlayout := c.ecuLayout.isLt
  have hpad := c.padEn.toNat_lt
  have hfc := c.rxFcEn.toNat_lt
  have hbyte := c.padByte.isLt
  have hbit2 := or_field_toNat (i := 2) (field_toNat c.ecuLayout (by decide)) (bit_toNat c.padEn) (by omega) (by omega)
  have hbit3 := or_field_toNat (i := 3) hbit2 (bit_toNat c.rxFcEn) (by omega) (by omega)
  exact or_field_toNat (i := 8) hbit3 (field_toNat c.padByte (by decide)) (by omega) (by omega)

theorem didWord_toNat (e : DidEntry) : (didWord e).toNat = e.did.toNat + e.valid.toNat * 2 ^ 16 := by
  have hvalid := e.valid.toNat_lt
  exact or_field_toNat (field_toNat e.did (by decide)) (bit_toNat e.valid) e.did.isLt (by omega)

theorem memRead_buffer (s : State) {a : Nat} (hlo : txBase ≤ a) (hhi : a < outEnd) : memRead s a = wordAt s a :=
  if_pos (Bool.and_eq_true_iff.mpr ⟨decide_eq_true hlo, decide_eq_true hhi⟩)

theorem memRead_register (s : State) {a : Nat} (h : a < txBase ∨ outEnd ≤ a) : memRead s a = registerWord s a :=
  if_neg fun hin => by
    obtain ⟨hlo, hhi⟩ := Bool.and_eq_true_iff.mp hin
    have hlo := of_decide_eq_true hlo
    have hhi := of_decide_eq_true hhi
    omega

/-- An offset reads 0 unless the map lists it. -/
theorem registerWord_cases (s : State) (a : Nat) : registerWord s a = 0 ∨ (a, registerWord s a) ∈ registerWords s := by
  unfold registerWord
  split
  · next row hfind =>
    have hrow : row.1 = a := by simpa using List.find?_some hfind
    subst hrow
    exact .inr (List.mem_of_find?_eq_some hfind)
  · exact .inl rfl

/-- The offsets of the map are the same in every state. -/
theorem registerWords_offsets (s : State) :
    (registerWords s).map Prod.fst = (registerWords State.reset).map Prod.fst := rfl

theorem registerWord_unlisted (s : State) {a : Nat} (h : a ∉ (registerWords State.reset).map Prod.fst) :
    registerWord s a = 0 :=
  (registerWord_cases s a).resolve_right fun hmem => h (registerWords_offsets s ▸ List.mem_map_of_mem hmem)

theorem listed_not_reserved : ∀ a ∈ (registerWords State.reset).map Prod.fst,
    ¬ (0x038 ≤ a ∧ a < 0x040) ∧ ¬ (0x068 ≤ a ∧ a < 0x070) ∧ a < 0x090 := by
  decide

/-- Six registers aside, every word reads 0 after a reset (70_reset_and_hazards.md R451). -/
theorem resetWord_zero : ∀ row ∈ registerWords State.reset,
    row.1 ∉ [0x00C, 0x010, 0x014, 0x018, 0x01C, 0x020] → row.2 = 0 := by
  decide

/-- The values other than 0 that the table of R451 gives. -/
theorem resetWords : registerWord State.reset 0x00C = 0x00000008 ∧ registerWord State.reset 0x010 = 0x7E0 ∧
    registerWord State.reset 0x014 = 0x7E8 ∧ registerWord State.reset 0x018 = 1000000 ∧
    registerWord State.reset 0x01C = 2 ∧ registerWord State.reset 0x020 = 3 := by
  decide

/-- Neither the environment nor the draws are in the map. -/
theorem memRead_resetEvent (s : State) {a : Nat} (h : a < txBase) :
    memRead (resetEvent s) a = registerWord State.reset a := memRead_register _ (.inl h)

/-! ### The bits a host write keeps (20_memory.md R82) -/

/-- A field of `n` bits from bit `i` on, put back at its place, is the word under the field's mask. -/
theorem extractLsb'_shiftLeft (v : Word32) (i n : Nat) :
    (v.extractLsb' i n).setWidth 32 <<< i = v &&& (BitVec.ofNat 32 (2 ^ n - 1) <<< i) := by
  ext k hk
  simp only [BitVec.getElem_shiftLeft, BitVec.getElem_and, BitVec.getElem_setWidth, BitVec.getLsbD_extractLsb']
  by_cases hik : k < i
  · simp [hik]
  · have hsum : i + (k - i) = k := by omega
    have hmask : (BitVec.ofNat 32 (2 ^ n - 1))[k - i] = decide (k - i < n) := by
      rw [← BitVec.getLsbD_eq_getElem, BitVec.getLsbD_ofNat, Nat.testBit_two_pow_sub_one,
        decide_eq_true (show k - i < 32 by omega), Bool.true_and]
    simp [hik, hsum, hmask, BitVec.getLsbD_eq_getElem hk, Bool.and_comm (decide _)]

theorem setWidth_extractLsb' (v : Word32) (n : Nat) :
    (v.extractLsb' 0 n).setWidth 32 = v &&& BitVec.ofNat 32 (2 ^ n - 1) := by
  simpa using extractLsb'_shiftLeft v 0 n

theorem bit_getLsbD_shiftLeft (v : Word32) (i : Nat) : bit (v.getLsbD i) <<< i = v &&& BitVec.twoPow 32 i := by
  rw [BitVec.and_twoPow]
  cases v.getLsbD i <;> simp [bit, BitVec.twoPow]

theorem cfgWord_cfgOfWord (v : Word32) : cfgWord (cfgOfWord v) = v &&& 0x0000FF0F := by
  have hlayout := setWidth_extractLsb' v 2
  have hbyte := extractLsb'_shiftLeft v 8 8
  rw [cfgWord, cfgOfWord, hlayout, hbyte, bit_getLsbD_shiftLeft, bit_getLsbD_shiftLeft, ← BitVec.and_or_distrib_left,
    ← BitVec.and_or_distrib_left, ← BitVec.and_or_distrib_left]
  rfl

theorem didWord_didOfWord (v : Word32) : didWord (didOfWord v) = v &&& 0x1FFFF := by
  rw [didWord, didOfWord, setWidth_extractLsb', bit_getLsbD_shiftLeft, ← BitVec.and_or_distrib_left]
  rfl

theorem and_allBits (v : Word32) : v &&& 0xFFFFFFFF = v := BitVec.and_allOnes

/-- Each writable register reads back the bits it names. -/
theorem registerWord_registerWrite (s : State) (v : Word32) : ∀ row ∈ writableRegisters,
    registerWord { s with regs := registerWrite row.1 v s.regs } row.1 = v &&& row.2 := by
  have hword := (and_allBits v).symm
  have hdid := didWord_didOfWord v
  have hid := setWidth_extractLsb' v 11
  have hbyte := setWidth_extractLsb' v 8
  simp only [writableRegisters, List.forall_mem_cons]
  exact ⟨cfgWord_cfgOfWord v, hid, hid, hword, hbyte, hbyte, hdid, hdid, hdid, hdid, hdid, hword, hword, hword, hword,
    hid, setWidth_extractLsb' v 4, hword, hword, nofun⟩

/-- A write to a register leaves the rows of the others. -/
theorem registerWords_registerWrite (s : State) (v : Word32) : ∀ row ∈ writableRegisters,
    (registerWords { s with regs := registerWrite row.1 v s.regs }).filter (fun r => r.1 != row.1) =
      (registerWords s).filter fun r => r.1 != row.1 := by
  simp only [writableRegisters, List.forall_mem_cons]
  exact ⟨rfl, rfl, rfl, rfl, rfl, rfl, rfl, rfl, rfl, rfl, rfl, rfl, rfl, rfl, rfl, rfl, rfl, rfl, rfl, nofun⟩

theorem find?_filter_ne {α : Type} (l : List (Nat × α)) {a b : Nat} (h : b ≠ a) :
    (l.filter fun r => r.1 != a).find? (fun r => r.1 == b) = l.find? fun r => r.1 == b := by
  rw [List.find?_filter]
  congr 1
  funext r
  grind

theorem registerWord_registerWrite_ne (s : State) (v : Word32) {row : Nat × Word32} (hrow : row ∈ writableRegisters)
    {b : Nat} (hb : b ≠ row.1) :
    registerWord { s with regs := registerWrite row.1 v s.regs } b = registerWord s b := by
  rw [registerWord, registerWord, ← find?_filter_ne _ hb, registerWords_registerWrite s v row hrow,
    find?_filter_ne _ hb]

theorem registerWrite_notWritable {a : Nat} (h : a ∉ writableRegisters.map Prod.fst) (v : Word32) (r : HostRegs) :
    registerWrite a v r = r := by
  simp only [writableRegisters, List.map, List.mem_cons, not_or] at h
  simp only [registerWrite, h, if_false]

theorem writableBits_buffer {a : Nat} (h : txBase ≤ a ∧ a < outBase) : writableBits a = 0xFFFFFFFF := if_pos h

/-- Outside TXBUF and RXBUF an offset is a writable register with its mask, or keeps no bit. -/
theorem writableBits_cases {a : Nat} (h : ¬ (txBase ≤ a ∧ a < outBase)) :
    (a, writableBits a) ∈ writableRegisters ∨ writableBits a = 0 ∧ a ∉ writableRegisters.map Prod.fst := by
  rw [writableBits, if_neg h]
  split
  · next row hfind =>
    have hrow : row.1 = a := by simpa using List.find?_some hfind
    subst hrow
    exact .inl (List.mem_of_find?_eq_some hfind)
  · next hfind =>
    refine .inr ⟨rfl, fun hmem => ?_⟩
    obtain ⟨row, hrow, rfl⟩ := List.mem_map.mp hmem
    exact List.find?_eq_none.mp hfind row hrow (beq_self_eq_true row.1)

theorem writable_below_txBase : ∀ row ∈ writableRegisters, row.1 < txBase ∧ row.2 ≠ 0 := by decide

/-- The four bytes of a word make the word again (20_memory.md R87). -/
theorem leWord_wordByte (v : Word32) : leWord (wordByte v 0) (wordByte v 1) (wordByte v 2) (wordByte v 3) = v := by
  have hv := v.isLt
  apply BitVec.eq_of_toNat_eq
  rw [leWord_toNat, wordByte_toNat, wordByte_toNat, wordByte_toNat, wordByte_toNat]
  omega

/-! ### A host write (20_memory.md R82) -/

theorem hostStore_busy {s : State} (h : s.ctl ≠ .idle) (a : Nat) (v : Word32) : hostStore a v s = s :=
  if_pos (bne_iff_ne.mpr h)

section
variable {s : State} (hidle : s.ctl = .idle)
include hidle

theorem hostStore_buffer {a : Nat} (ha : txBase ≤ a ∧ a < outBase) (v : Word32) :
    hostStore a v s = storeAt s a (bytesOfWord v) := by
  rw [hostStore, busy, hidle, if_neg (by decide), if_pos ha]

theorem hostStore_register {a : Nat} (ha : ¬ (txBase ≤ a ∧ a < outBase)) (v : Word32) :
    hostStore a v s = { s with regs := registerWrite a v s.regs } := by
  rw [hostStore, busy, hidle, if_neg (by decide), if_neg ha]

/-- A write while BUSY = 0 reaches registers and buffers alone. -/
theorem hostStore_frame (a : Nat) (v : Word32) :
    ({ hostStore a v s with regs := s.regs, mem := s.mem } : State) = s := by
  by_cases ha : txBase ≤ a ∧ a < outBase
  · rw [hostStore_buffer hidle ha]
    rfl
  · rw [hostStore_register hidle ha]

theorem hostStore_ctl (a : Nat) (v : Word32) : (hostStore a v s).ctl = .idle :=
  (congrArg State.ctl (hostStore_frame hidle a v)).trans hidle

/-- The four bytes stored read back as the word. -/
theorem memRead_hostStore_same {a : Nat} (hwritable : writableBits a ≠ 0) (v : Word32) :
    memRead (hostStore a v s) a = v &&& writableBits a := by
  by_cases ha : txBase ≤ a ∧ a < outBase
  · have hbyte : ∀ k, k < 4 → byteAt (storeAt s a (bytesOfWord v)) (a + k) = (bytesOfWord v).getD k 0 :=
      fun k hk => byteAt_storeAt_inside s a hk
    have hzero : byteAt (storeAt s a (bytesOfWord v)) a = (bytesOfWord v).getD 0 0 := hbyte 0 (by omega)
    rw [hostStore_buffer hidle ha, writableBits_buffer ha, and_allBits,
      memRead_buffer _ ha.1 (lt_of_lt_of_le ha.2 (by decide)), wordAt, hzero, hbyte 1 (by omega), hbyte 2 (by omega),
      hbyte 3 (by omega)]
    exact leWord_wordByte v
  · have hrow := (writableBits_cases ha).resolve_right fun hnone => hwritable hnone.1
    rw [hostStore_register hidle ha, memRead_register _ (.inl (writable_below_txBase _ hrow).1)]
    exact registerWord_registerWrite s v _ hrow

/-- No other word of the map changes: an aligned word of a buffer shares no byte with another. -/
theorem memRead_hostStore_other {a b : Nat} (ha4 : a % 4 = 0) (hb4 : b % 4 = 0) (hb : b ≠ a ∨ writableBits a = 0)
    (v : Word32) : memRead (hostStore a v s) b = memRead s b := by
  by_cases ha : txBase ≤ a ∧ a < outBase
  · have hne : b ≠ a := hb.resolve_right (by rw [writableBits_buffer ha]; decide)
    have hbyte : ∀ k, k < 4 → byteAt (storeAt s a (bytesOfWord v)) (b + k) = byteAt s (b + k) := fun k hk => by
      rw [byteAt_storeAt, if_neg]
      have hlen : (bytesOfWord v).length = 4 := rfl
      omega
    have hword : wordAt (storeAt s a (bytesOfWord v)) b = wordAt s b := by
      have hzero := hbyte 0 (by omega)
      rw [Nat.add_zero] at hzero
      rw [wordAt, wordAt, hzero, hbyte 1 (by omega), hbyte 2 (by omega), hbyte 3 (by omega)]
    rw [hostStore_buffer hidle ha, memRead, memRead, hword]
    rfl
  · have hregister : registerWord { s with regs := registerWrite a v s.regs } b = registerWord s b := by
      obtain hrow | ⟨-, hnone⟩ := writableBits_cases ha
      · have hne : b ≠ a := hb.resolve_right (writable_below_txBase _ hrow).2
        exact registerWord_registerWrite_ne s v hrow hne
      · rw [registerWrite_notWritable hnone]
    rw [hostStore_register hidle ha, memRead, memRead, hregister]
    rfl

end

/-! ### The statements -/

/-- Settles O7, input by input. -/
theorem stepRunsTheDecodedInstruction : Obligations.StepRunsTheDecodedInstruction := by
  intro s after taking carried
  have hcarried : ∀ addr width, hostAccessOk addr width = true ↔ carried addr width := hostAccessOk_iff
  refine ⟨fun v rest h => ?_, fun rest f fs h hfifo hready => ?_, fun rest h hnot => ?_, fun addr width rest h => ?_,
    fun addr width v rest h hnot => ?_, fun rest h => step_of_inputs h, fun f rest h => step_of_inputs h,
    fun level rest h => step_of_inputs h, fun h => ?_, rxReady_iff s.ctl, rfl⟩
  · have hstep : step s = settle (commandWritten v (after rest)) := step_of_inputs h
    refine ⟨hstep, fun i hdec _ => ?_⟩
    rw [hstep, commandWritten_ok hdec]
  · have hstep : step s = settle (frameReceived f (taking rest fs)) :=
      (step_of_inputs h).trans (rxEvent_taken (s := after rest) hready hfifo)
    refine ⟨hstep, fun i hdec _ => ?_⟩
    rw [hstep, frameReceived_ok hdec]
  · exact (step_of_inputs h).trans (rxEvent_notEnabled (s := after rest) hnot)
  · have hstep : step s = hostRead addr width (after rest) := step_of_inputs h
    refine ⟨hstep, fun hin => ?_, fun hout => ?_⟩
    · exact hstep.trans (hostRead_carried ((hcarried _ _).mpr hin) _)
    · exact hstep.trans (hostRead_refused ((hcarried _ _).not.mpr hout) _)
  · exact (step_of_inputs h).trans (hostWrite_refused ((hcarried _ _).not.mpr hnot) _ _)
  · simp only [step, nextInput, h]

/-- Settles O18, field by field. -/
theorem statusWordHasItsFields : Obligations.StatusWordHasItsFields := by
  intro s
  exact ⟨by rw [statusWord_toNat, busy_toNat], rfl, rfl⟩

/-- Settles O54: the timer runs in the five waiting states and saturates; a TxAck needs a frame on the port. -/
theorem tickAndTxAckAreHandledWhole : Obligations.TickAndTxAckAreHandledWhole := by
  intro s rest s' waiting
  have hruns : timerRuns s'.ctl = true ↔ waiting := timerRuns_iff s.ctl
  refine ⟨fun dt hpos h => ?_, fun ok h hvalid => ?_, fun ok h hvalid => ?_⟩
  · have hstep : step s = .next (timeoutEval (advanceTimer dt s')) := (step_of_inputs h).trans (tickEvent_pos hpos s')
    refine ⟨fun hwait => ⟨_, sat32_toNat _, ?_⟩, fun hnot => ?_⟩
    · rw [hstep, advanceTimer, if_pos (hruns.mpr hwait)]
    · rw [hstep, advanceTimer, if_neg (hruns.not.mpr hnot)]
  · exact (step_of_inputs h).trans (if_pos hvalid)
  · exact (step_of_inputs h).trans (if_neg (by rw [hvalid]; decide))

/-- Settles O55: the store at the step, and what it reads back. -/
theorem hostWriteReadsBackInTheNamedBits : Obligations.HostWriteReadsBackInTheNamedBits := by
  intro s addr v halign hpos hend a
  refine ⟨fun rest h => ?_, fun hbusy => hostStore_busy hbusy a v, fun hidle => ?_⟩
  · intro s'
    have haccess : hostAccessOk addr 4 = true := (hostAccessOk_iff addr 4).mpr ⟨rfl, halign, hend⟩
    have hstep : step s = settle (.next (hostStore a v s')) :=
      (step_of_inputs h).trans (hostWrite_store haccess hpos.ne' v s')
    refine ⟨hstep, fun hidle => hstep.trans ?_⟩
    exact congrArg Host.Outcome.next (timeoutEval_idle (hostStore_ctl (s := s') hidle a v))
  · exact ⟨fun hwritable => memRead_hostStore_same hidle hwritable v,
      fun b hb4 _ hb => memRead_hostStore_other hidle halign hb4 hb v, hostStore_frame hidle a v⟩

/-- Settles O56: the access check, then the rows of the map, the reserved offsets and the buffers. -/
theorem hostPortCarriesAlignedWords : Obligations.HostPortCarriesAlignedWords := by
  intro s addr width v carried
  have hcarried : hostAccessOk addr width = true ↔ carried := hostAccessOk_iff addr width
  refine ⟨fun hin => ⟨_, hostRead_carried (hcarried.mpr hin) s, rfl, rfl⟩, fun hout => ?_, List.map_inj_left.mp rfl,
    cfgWord_toNat s.regs.cfg, ?_, fun a _ hreserved => ?_, fun a hlo hhi _ => ?_⟩
  · exact ⟨hostRead_refused (hcarried.not.mpr hout) s, hostWrite_refused (hcarried.not.mpr hout) v s⟩
  · simp only [List.forall_mem_cons]
    exact ⟨didWord_toNat _, didWord_toNat _, didWord_toNat _, didWord_toNat _, didWord_toNat _, nofun⟩
  · have hregister : a < txBase ∨ outEnd ≤ a := by
      rw [txBase, outEnd] at *
      omega
    rw [memRead_register s hregister]
    refine registerWord_unlisted s fun hlisted => ?_
    obtain ⟨h038, h068, h090⟩ := listed_not_reserved a hlisted
    rw [outEnd] at hreserved
    omega
  · rw [memRead_buffer s hlo hhi, wordAt, leWord_toNat]

/-- Settles O57: the words after a reset are those of `State.reset`. -/
theorem resetRestoresEveryRegister : Obligations.ResetRestoresEveryRegister := by
  intro s rest h
  have hread : ∀ a, a < 0x1000 → memRead (resetEvent { s with env := { s.env with inputs := rest } }) a =
      registerWord State.reset a := fun a ha => memRead_resetEvent _ ha
  obtain ⟨hcfg, hreq, hresp, htu, hfc, hdef⟩ := resetWords
  refine ⟨_, step_of_inputs h, rfl, rfl, (hread _ (by decide)).trans hcfg, (hread _ (by decide)).trans hreq,
    (hread _ (by decide)).trans hresp, (hread _ (by decide)).trans htu, (hread _ (by decide)).trans hfc,
    (hread _ (by decide)).trans hdef, fun a ha hother => ?_, fun a hlo hhi => ?_, rfl, rfl⟩
  · exact (hread a ha).trans
      ((registerWord_cases State.reset a).elim id fun hrow => resetWord_zero _ hrow hother)
  · exact unlistedByte_outbuf _ (Bool.and_eq_true_iff.mpr ⟨decide_eq_true hlo, decide_eq_true hhi⟩)

end Sys2Proof.Machine
end
